-- ==== Sys2Proof/Word.lean ====
section
/-! DEFINITION. The bit vectors of the VC8145 frame bit-field parser: what 00_scope.md R5 to R7 and
20_memory.md R56 treat as bits. Bit 0 is the least significant bit (R6). -/

namespace Sys2Proof

/-- One byte of a frame (00_scope.md R5, `BYTE_BITS`). -/
abbrev Byte := BitVec 8

/-- A 4-bit field of the result register: `MODE`, `DPR`, `DP`, a digit code (10_state.md R22). -/
abbrev Nibble := BitVec 4

/-- A 3-bit field of the result register: `UNIT`, `PFX` (10_state.md R22). -/
abbrev Code3 := BitVec 3

/-- The frame port `frame_in` (10_state.md R20): byte `F[i]` in bits `8i+7` to `8i` (20_memory.md R56). -/
abbrev Frame := BitVec 96

/-- The reading word, the output port `reading` (10_state.md R20). -/
abbrev ReadingWord := BitVec 48

/-- The 44 state bits of the result register (70_reset_and_hazards.md R251). -/
abbrev RegisterBits := BitVec 44

end Sys2Proof
end

