-- ==== Sys2Proof/Syntax.lean ====
section
/-! DEFINITION. The 36 rows of spec/opcode_table.json, one constructor each. The CTRL rows are the operations of a
clock edge (30_encoding.md R75). A row of the other four formats is what one part of a frame selects
(30_encoding.md R77 to R79, 41_field_extract.md R115): its operands are the bits of that part which the row's own
bits leave open, and the rest of the frame stands on the port (log 4). -/

namespace Sys2Proof

inductive Instr where
  -- CTRL (30_encoding.md R75)
  /-- HOLD, `CTRL = 0b00` (43_control.md R185); `frame_in` is ignored. -/
  | hold
  /-- LOAD, `CTRL = 0b01` (43_control.md R181), of the frame `f`. -/
  | load (f : Frame)
  /-- RESET, `CTRL = 0b10` (43_control.md R183); `frame_in` is ignored. -/
  | reset
  /-- RESETLOAD, `CTRL = 0b11` (43_control.md R184), with the frame `f` at the port. -/
  | resetLoad (f : Frame)
  -- FRAMING (30_encoding.md R79)
  /-- FRAME_VALID: `F[0] = 0x89` and `F[11] = 0x0A` (40_validate.md R100). -/
  | frameValid
  /-- FRAME_INVALID: any other pair `(F[0], F[11]) = (cmd, lf)` (40_validate.md R101). -/
  | frameInvalid (cmd lf : Byte)
  -- MODE_SEL (30_encoding.md R77): `dpf` is the decimal-position field `F[2][5:3]`
  /-- MODE_0_UNKNOWN, `F[1][6:3] = 0x0` (42_mode_table.md R152). -/
  | mode0Unknown (dpf : Code3)
  /-- MODE_1_UNKNOWN, `F[1][6:3] = 0x1` (42_mode_table.md R152). -/
  | mode1Unknown (dpf : Code3)
  /-- MODE_2_UNKNOWN, `F[1][6:3] = 0x2` (42_mode_table.md R152). -/
  | mode2Unknown (dpf : Code3)
  /-- MODE_3_UNKNOWN, `F[1][6:3] = 0x3` (42_mode_table.md R152). -/
  | mode3Unknown (dpf : Code3)
  /-- MODE_4_GEN, `F[1][6:3] = 0x4` (42_mode_table.md R141). -/
  | mode4Gen (dpf : Code3)
  /-- MODE_5_AMP, `F[1][6:3] = 0x5` (42_mode_table.md R142). -/
  | mode5Amp (dpf : Code3)
  /-- MODE_6_MAMP, `F[1][6:3] = 0x6` (42_mode_table.md R143). -/
  | mode6Mamp (dpf : Code3)
  /-- MODE_7_UNKNOWN, `F[1][6:3] = 0x7` (42_mode_table.md R152). -/
  | mode7Unknown (dpf : Code3)
  /-- MODE_8_TEMP, `F[1][6:3] = 0x8` (42_mode_table.md R144). -/
  | mode8Temp (dpf : Code3)
  /-- MODE_9_CAP, `F[1][6:3] = 0x9` (42_mode_table.md R145). -/
  | mode9Cap (dpf : Code3)
  /-- MODE_A_FREQ, `F[1][6:3] = 0xA` (42_mode_table.md R146). -/
  | modeAFreq (dpf : Code3)
  /-- MODE_B_DIODE, `F[1][6:3] = 0xB` (42_mode_table.md R147). -/
  | modeBDiode (dpf : Code3)
  /-- MODE_C_RES, `F[1][6:3] = 0xC` (42_mode_table.md R148). -/
  | modeCRes (dpf : Code3)
  /-- MODE_D_MV, `F[1][6:3] = 0xD` (42_mode_table.md R149). -/
  | modeDMv (dpf : Code3)
  /-- MODE_E_DCV, `F[1][6:3] = 0xE` (42_mode_table.md R150). -/
  | modeEDcv (dpf : Code3)
  /-- MODE_F_ACV, `F[1][6:3] = 0xF` (42_mode_table.md R151). -/
  | modeFAcv (dpf : Code3)
  -- DIGIT_LANE (30_encoding.md R78): the lane is `i` of the byte `F[5+i]` (41_field_extract.md R120)
  /-- DIGIT_0, `F[5+lane] = 0x30` (41_field_extract.md R117). -/
  | digit0 (lane : Fin 5)
  /-- DIGIT_1, `F[5+lane] = 0x31` (41_field_extract.md R117). -/
  | digit1 (lane : Fin 5)
  /-- DIGIT_2, `F[5+lane] = 0x32` (41_field_extract.md R117). -/
  | digit2 (lane : Fin 5)
  /-- DIGIT_3, `F[5+lane] = 0x33` (41_field_extract.md R117). -/
  | digit3 (lane : Fin 5)
  /-- DIGIT_4, `F[5+lane] = 0x34` (41_field_extract.md R117). -/
  | digit4 (lane : Fin 5)
  /-- DIGIT_5, `F[5+lane] = 0x35` (41_field_extract.md R117). -/
  | digit5 (lane : Fin 5)
  /-- DIGIT_6, `F[5+lane] = 0x36` (41_field_extract.md R117). -/
  | digit6 (lane : Fin 5)
  /-- DIGIT_7, `F[5+lane] = 0x37` (41_field_extract.md R117). -/
  | digit7 (lane : Fin 5)
  /-- DIGIT_8, `F[5+lane] = 0x38` (41_field_extract.md R117). -/
  | digit8 (lane : Fin 5)
  /-- DIGIT_9, `F[5+lane] = 0x39` (41_field_extract.md R117). -/
  | digit9 (lane : Fin 5)
  /-- OVERFLOW, `F[5+lane] = 0x3E` (41_field_extract.md R118). -/
  | overflow (lane : Fin 5)
  /-- BLANK, `F[5+lane] = b`, any other byte (41_field_extract.md R119). -/
  | blank (lane : Fin 5) (b : Byte)
  -- SIGN
  /-- SIGN_POS, `F[4][4] = 0` (41_field_extract.md R115). -/
  | signPos
  /-- SIGN_NEG, `F[4][4] = 1` (41_field_extract.md R115). -/
  | signNeg
  deriving DecidableEq, Repr

end Sys2Proof
end

