-- ==== Sys2Proof/WellFormed.lean ====
section
/-! DEFINITION. Which instruction terms are rows of the table: the two rows that stand for "any other" bytes hold
no byte of their neighbours (30_encoding.md R78, R79). Every other operand is exact by its type. -/

namespace Sys2Proof

/-- A byte that is no ASCII decimal digit and not 0x3E (41_field_extract.md R119). -/
def isBlankByte (b : Byte) : Bool :=
  !(0x30#8 ≤ b && b ≤ 0x39#8) && b != 0x3E#8

/-- A pair of framing bytes other than the valid one (30_encoding.md R79). -/
def isInvalidFraming (cmd lf : Byte) : Bool :=
  !(cmd == 0x89#8 && lf == 0x0A#8)

/-- A well-formed instruction: its operands are ones its row of the table admits. -/
def WellFormed : Instr → Bool
  | .hold => true
  | .load _ => true
  | .reset => true
  | .resetLoad _ => true
  | .frameValid => true
  | .frameInvalid cmd lf => isInvalidFraming cmd lf
  | .mode0Unknown _ => true
  | .mode1Unknown _ => true
  | .mode2Unknown _ => true
  | .mode3Unknown _ => true
  | .mode4Gen _ => true
  | .mode5Amp _ => true
  | .mode6Mamp _ => true
  | .mode7Unknown _ => true
  | .mode8Temp _ => true
  | .mode9Cap _ => true
  | .modeAFreq _ => true
  | .modeBDiode _ => true
  | .modeCRes _ => true
  | .modeDMv _ => true
  | .modeEDcv _ => true
  | .modeFAcv _ => true
  | .digit0 _ => true
  | .digit1 _ => true
  | .digit2 _ => true
  | .digit3 _ => true
  | .digit4 _ => true
  | .digit5 _ => true
  | .digit6 _ => true
  | .digit7 _ => true
  | .digit8 _ => true
  | .digit9 _ => true
  | .overflow _ => true
  | .blank _ b => isBlankByte b
  | .signPos => true
  | .signNeg => true

end Sys2Proof
end

