-- ==== Sys2Proof/Decode.lean ====
section
/-! DEFINITION. The decoder: from the control word and the frame to the instructions of Syntax.lean, total on any
bytes, rejecting by name; and AFTER it the encoder, written from the same tables (30_encoding.md R70, R75, R77 to
R79). A row of a selector format has no bits outside its part of the frame, so each format has its own short layout of
bytes (log 6). -/

namespace Sys2Proof

/-! ## The frame's bytes and fields -/

/-- The byte `F[i]` of a frame (20_memory.md R56). -/
def frameByte (f : Frame) (i : Nat) : Byte := f.extractLsb' (8 * i) 8

/-- `CMD_BYTE` (00_scope.md R5; as written, log 14). -/
def cmdByte : Byte := 0x89#8

/-- `LF_BYTE` (00_scope.md R5; as written, log 14). -/
def lfByte : Byte := 0x0A#8

/-- `OVF_BYTE` (00_scope.md R5; as written, log 14). -/
def ovfByte : Byte := 0x3E#8

/-- The mode field `F[1][6:3]`, at `frame_in[14:11]` (30_encoding.md R70, R71). -/
def modeField (f : Frame) : Nibble := f.extractLsb' 11 4

/-- The decimal-position field `F[2][5:3]`, at `frame_in[21:19]` (30_encoding.md R70, R71). -/
def dpField (f : Frame) : Code3 := f.extractLsb' 19 3

/-- The sign flag `F[4][4]`, at `frame_in[36]` (30_encoding.md R70, R71). -/
def signField (f : Frame) : Bool := f.getLsbD 36

/-- The digit byte `F[5+lane]`, at `frame_in[8(5+lane)+7 : 8(5+lane)]` (30_encoding.md R70, R71). -/
def digitByte (f : Frame) (lane : Fin 5) : Byte := frameByte f (5 + lane.val)

/-- A frame from its twelve bytes, `F[0]` first (20_memory.md R54, R56). -/
def frameOf (b0 b1 b2 b3 b4 b5 b6 b7 b8 b9 b10 b11 : Byte) : Frame :=
  b11 ++ b10 ++ b9 ++ b8 ++ b7 ++ b6 ++ b5 ++ b4 ++ b3 ++ b2 ++ b1 ++ b0

/-- A frame from a list of bytes: exactly twelve, or none (30_encoding.md R74). -/
def frameOfBytes : List Byte → Option Frame
  | [b0, b1, b2, b3, b4, b5, b6, b7, b8, b9, b10, b11] => some (frameOf b0 b1 b2 b3 b4 b5 b6 b7 b8 b9 b10 b11)
  | _ => none

/-- The twelve bytes of a frame in the order of reception (20_memory.md R54). -/
def bytesOfFrame (f : Frame) : List Byte := (List.range 12).map (frameByte f)

/-! ## Formats -/

/-- The four selector formats of the table: which part of a frame is read. -/
inductive Selector where
  | framing
  | modeSel
  | digitLane (lane : Fin 5)
  | sign
  deriving DecidableEq, Repr

/-- The five formats of spec/opcode_table.json. -/
inductive Format where
  | ctrl
  | selector (k : Selector)
  deriving DecidableEq, Repr

/-- Why bytes are no instruction of a format. -/
inductive DecodeError where
  /-- The control byte has a bit above `CTRL`'s two (30_encoding.md R75). -/
  | controlTooWide (b : Byte)
  /-- The list does not have the format's number of bytes; for a frame, R74: "The host presents exactly 12 bytes". -/
  | wrongLength (wanted got : Nat)
  deriving DecidableEq, Repr

/-- How many bytes a format's layout has (log 6): the control byte and the frame; `F[0]` and `F[11]`; `F[1]` and
`F[2]`; one digit byte; `F[4]`. -/
def Format.length : Format → Nat
  | .ctrl => 13
  | .selector .framing => 2
  | .selector .modeSel => 2
  | .selector (.digitLane _) => 1
  | .selector .sign => 1

/-! ## The decoder -/

/-- The operation of an edge (30_encoding.md R75, R76): every value of `CTRL = {rst, load}` selects one. -/
def decodeControl (rst load : Bool) (f : Frame) : Instr :=
  match rst, load with
  | false, false => .hold
  | false, true => .load f
  | true, false => .reset
  | true, true => .resetLoad f

/-- The framing selector (30_encoding.md R79). -/
def decodeFraming (cmd lf : Byte) : Instr :=
  if cmd == cmdByte && lf == lfByte then .frameValid else .frameInvalid cmd lf

/-- The mode selector (30_encoding.md R77), from the mode field and the decimal-position field. -/
def decodeMode (mc : Nibble) (dpf : Code3) : Instr :=
  match mc.toNat with
  | 0 => .mode0Unknown dpf
  | 1 => .mode1Unknown dpf
  | 2 => .mode2Unknown dpf
  | 3 => .mode3Unknown dpf
  | 4 => .mode4Gen dpf
  | 5 => .mode5Amp dpf
  | 6 => .mode6Mamp dpf
  | 7 => .mode7Unknown dpf
  | 8 => .mode8Temp dpf
  | 9 => .mode9Cap dpf
  | 10 => .modeAFreq dpf
  | 11 => .modeBDiode dpf
  | 12 => .modeCRes dpf
  | 13 => .modeDMv dpf
  | 14 => .modeEDcv dpf
  | _ => .modeFAcv dpf

/-- The digit selector of one lane (30_encoding.md R78). -/
def decodeDigit (lane : Fin 5) (b : Byte) : Instr :=
  match b.toNat with
  | 0x30 => .digit0 lane
  | 0x31 => .digit1 lane
  | 0x32 => .digit2 lane
  | 0x33 => .digit3 lane
  | 0x34 => .digit4 lane
  | 0x35 => .digit5 lane
  | 0x36 => .digit6 lane
  | 0x37 => .digit7 lane
  | 0x38 => .digit8 lane
  | 0x39 => .digit9 lane
  | 0x3E => .overflow lane
  | _ => .blank lane b

/-- The sign selector (41_field_extract.md R115). -/
def decodeSign (negative : Bool) : Instr :=
  if negative then .signNeg else .signPos

/-- The row that one part of a frame selects. -/
def select (k : Selector) (f : Frame) : Instr :=
  match k with
  | .framing => decodeFraming (frameByte f 0) (frameByte f 11)
  | .modeSel => decodeMode (modeField f) (dpField f)
  | .digitLane lane => decodeDigit lane (digitByte f lane)
  | .sign => decodeSign (signField f)

/-- The selectors of a frame: a LOAD reads all of them at one edge (20_memory.md R58). -/
def selectors : List Selector :=
  [.framing, .modeSel, .sign, .digitLane 0, .digitLane 1, .digitLane 2, .digitLane 3, .digitLane 4]

/-- The decoder: the bytes of one instruction, in the layout of its format. -/
def decode (fmt : Format) (bs : List Byte) : Except DecodeError Instr :=
  match fmt, bs with
  | .ctrl, [] => .error (.wrongLength 13 0)
  | .ctrl, c :: fs =>
    if c.toNat < 4 then
      match frameOfBytes fs with
      | some f => .ok (decodeControl (c.getLsbD 1) (c.getLsbD 0) f)
      | none => .error (.wrongLength 13 (fs.length + 1))
    else .error (.controlTooWide c)
  | .selector .framing, [cmd, lf] => .ok (decodeFraming cmd lf)
  | .selector .modeSel, [b1, b2] => .ok (decodeMode (b1.extractLsb' 3 4) (b2.extractLsb' 3 3))
  | .selector (.digitLane lane), [b] => .ok (decodeDigit lane b)
  | .selector .sign, [b] => .ok (decodeSign (b.getLsbD 4))
  | fmt, bs => .error (.wrongLength fmt.length bs.length)

/-! ## The encoder -/

/-- The format of an instruction's row. -/
def Instr.format : Instr → Format
  | .hold => .ctrl
  | .load _ => .ctrl
  | .reset => .ctrl
  | .resetLoad _ => .ctrl
  | .frameValid => .selector .framing
  | .frameInvalid _ _ => .selector .framing
  | .mode0Unknown _ => .selector .modeSel
  | .mode1Unknown _ => .selector .modeSel
  | .mode2Unknown _ => .selector .modeSel
  | .mode3Unknown _ => .selector .modeSel
  | .mode4Gen _ => .selector .modeSel
  | .mode5Amp _ => .selector .modeSel
  | .mode6Mamp _ => .selector .modeSel
  | .mode7Unknown _ => .selector .modeSel
  | .mode8Temp _ => .selector .modeSel
  | .mode9Cap _ => .selector .modeSel
  | .modeAFreq _ => .selector .modeSel
  | .modeBDiode _ => .selector .modeSel
  | .modeCRes _ => .selector .modeSel
  | .modeDMv _ => .selector .modeSel
  | .modeEDcv _ => .selector .modeSel
  | .modeFAcv _ => .selector .modeSel
  | .digit0 lane => .selector (.digitLane lane)
  | .digit1 lane => .selector (.digitLane lane)
  | .digit2 lane => .selector (.digitLane lane)
  | .digit3 lane => .selector (.digitLane lane)
  | .digit4 lane => .selector (.digitLane lane)
  | .digit5 lane => .selector (.digitLane lane)
  | .digit6 lane => .selector (.digitLane lane)
  | .digit7 lane => .selector (.digitLane lane)
  | .digit8 lane => .selector (.digitLane lane)
  | .digit9 lane => .selector (.digitLane lane)
  | .overflow lane => .selector (.digitLane lane)
  | .blank lane _ => .selector (.digitLane lane)
  | .signPos => .selector .sign
  | .signNeg => .selector .sign

/-- The control byte and a frame. -/
def controlBytes (ctrl : Byte) (f : Frame) : List Byte := ctrl :: bytesOfFrame f

/-- `F[1]` and `F[2]` of a mode row, their unused bits 0 (30_encoding.md R70). -/
def modeBytes (mc : Nibble) (dpf : Code3) : List Byte :=
  [mc.setWidth 8 <<< 3, dpf.setWidth 8 <<< 3]

/-- The bytes of an instruction in its format's layout. A frame that is don't-care is 0, and so are unused bits
(30_encoding.md R70, R85). -/
def encode : Instr → List Byte
  | .hold => controlBytes 0b00#8 0
  | .load f => controlBytes 0b01#8 f
  | .reset => controlBytes 0b10#8 0
  | .resetLoad f => controlBytes 0b11#8 f
  | .frameValid => [0x89#8, 0x0A#8]
  | .frameInvalid cmd lf => [cmd, lf]
  | .mode0Unknown dpf => modeBytes 0x0#4 dpf
  | .mode1Unknown dpf => modeBytes 0x1#4 dpf
  | .mode2Unknown dpf => modeBytes 0x2#4 dpf
  | .mode3Unknown dpf => modeBytes 0x3#4 dpf
  | .mode4Gen dpf => modeBytes 0x4#4 dpf
  | .mode5Amp dpf => modeBytes 0x5#4 dpf
  | .mode6Mamp dpf => modeBytes 0x6#4 dpf
  | .mode7Unknown dpf => modeBytes 0x7#4 dpf
  | .mode8Temp dpf => modeBytes 0x8#4 dpf
  | .mode9Cap dpf => modeBytes 0x9#4 dpf
  | .modeAFreq dpf => modeBytes 0xA#4 dpf
  | .modeBDiode dpf => modeBytes 0xB#4 dpf
  | .modeCRes dpf => modeBytes 0xC#4 dpf
  | .modeDMv dpf => modeBytes 0xD#4 dpf
  | .modeEDcv dpf => modeBytes 0xE#4 dpf
  | .modeFAcv dpf => modeBytes 0xF#4 dpf
  | .digit0 _ => [0x30#8]
  | .digit1 _ => [0x31#8]
  | .digit2 _ => [0x32#8]
  | .digit3 _ => [0x33#8]
  | .digit4 _ => [0x34#8]
  | .digit5 _ => [0x35#8]
  | .digit6 _ => [0x36#8]
  | .digit7 _ => [0x37#8]
  | .digit8 _ => [0x38#8]
  | .digit9 _ => [0x39#8]
  | .overflow _ => [0x3E#8]
  | .blank _ b => [b]
  | .signPos => [0x00#8]
  | .signNeg => [0x10#8]

/-- A frame with `n` bits from bit `lo` up replaced by `v`. -/
def putBits (f : Frame) (lo : Nat) {n : Nat} (v : BitVec n) : Frame :=
  (f &&& ~~~((BitVec.allOnes n).setWidth 96 <<< lo)) ||| (v.setWidth 96 <<< lo)

/-- A frame with a mode row's two fields put in place (30_encoding.md R71). -/
def placeMode (f : Frame) (mc : Nibble) (dpf : Code3) : Frame := putBits (putBits f 11 mc) 19 dpf

/-- A frame with the digit byte of a lane put in place (30_encoding.md R71). -/
def placeDigit (f : Frame) (lane : Fin 5) (b : Byte) : Frame := putBits f (8 * (5 + lane.val)) b

/-- The frame `f` with the instruction's own bits put in their place on the port, every other bit as in `f`: what a
host presents so that the part reads as this row. An instruction that carries a whole frame gives that frame. -/
def place : Instr → Frame → Frame
  | .hold, f => f
  | .load g, _ => g
  | .reset, f => f
  | .resetLoad g, _ => g
  | .frameValid, f => putBits (putBits f 0 0x89#8) 88 0x0A#8
  | .frameInvalid cmd lf, f => putBits (putBits f 0 cmd) 88 lf
  | .mode0Unknown dpf, f => placeMode f 0x0#4 dpf
  | .mode1Unknown dpf, f => placeMode f 0x1#4 dpf
  | .mode2Unknown dpf, f => placeMode f 0x2#4 dpf
  | .mode3Unknown dpf, f => placeMode f 0x3#4 dpf
  | .mode4Gen dpf, f => placeMode f 0x4#4 dpf
  | .mode5Amp dpf, f => placeMode f 0x5#4 dpf
  | .mode6Mamp dpf, f => placeMode f 0x6#4 dpf
  | .mode7Unknown dpf, f => placeMode f 0x7#4 dpf
  | .mode8Temp dpf, f => placeMode f 0x8#4 dpf
  | .mode9Cap dpf, f => placeMode f 0x9#4 dpf
  | .modeAFreq dpf, f => placeMode f 0xA#4 dpf
  | .modeBDiode dpf, f => placeMode f 0xB#4 dpf
  | .modeCRes dpf, f => placeMode f 0xC#4 dpf
  | .modeDMv dpf, f => placeMode f 0xD#4 dpf
  | .modeEDcv dpf, f => placeMode f 0xE#4 dpf
  | .modeFAcv dpf, f => placeMode f 0xF#4 dpf
  | .digit0 lane, f => placeDigit f lane 0x30#8
  | .digit1 lane, f => placeDigit f lane 0x31#8
  | .digit2 lane, f => placeDigit f lane 0x32#8
  | .digit3 lane, f => placeDigit f lane 0x33#8
  | .digit4 lane, f => placeDigit f lane 0x34#8
  | .digit5 lane, f => placeDigit f lane 0x35#8
  | .digit6 lane, f => placeDigit f lane 0x36#8
  | .digit7 lane, f => placeDigit f lane 0x37#8
  | .digit8 lane, f => placeDigit f lane 0x38#8
  | .digit9 lane, f => placeDigit f lane 0x39#8
  | .overflow lane, f => placeDigit f lane 0x3E#8
  | .blank lane b, f => placeDigit f lane b
  | .signPos, f => putBits f 36 0#1
  | .signNeg, f => putBits f 36 1#1

/-! ## The table's numbering -/

/-- The format in which a bare byte of the table is read. Rows of different formats share words (HOLD, MODE_0_UNKNOWN
and SIGN_POS are all 0x00), and a word alone does not say which part of the port it stands on: this fixed choice gives
every RULE of the table a word that reaches it (log 5). -/
def byteFormat (w : Nat) : Format :=
  if w < 4 then .ctrl
  else if w = 0x10 then .selector .sign
  else if w = 0x30 then .selector .modeSel
  else if (0x31 ≤ w ∧ w ≤ 0x39) ∨ w = 0x3E then .selector (.digitLane 0)
  else if w % 8 = 0 ∧ w < 0x80 then .selector .modeSel
  else .selector (.digitLane 0)

/-- The format in which a table word of `nbits` bits is read: one byte as `byteFormat` says; two bytes are `F[1]` and
`F[2]` of a mode row; a frame's width is a frame, read by its framing; more is the control byte and a frame. -/
def tableFormat (nbits w : Nat) : Format :=
  if nbits ≤ 8 then byteFormat w
  else if nbits ≤ 16 then .selector .modeSel
  else if nbits ≤ 96 then .selector .framing
  else .ctrl

/-- The first `n` bytes of a number, the least significant first. -/
def bytesOfNat (n w : Nat) : List Byte :=
  (List.range n).map fun k => BitVec.ofNat 8 (w >>> (8 * k))

/-- The bytes of a table word in its format's layout. -/
def tableBytes (fmt : Format) (w : Nat) : List Byte :=
  match fmt with
  | .selector .framing => [BitVec.ofNat 8 w, BitVec.ofNat 8 (w >>> 88)]
  | fmt => bytesOfNat fmt.length w

/-- The instruction the decoder reads from a word numbered as spec/opcode_table.json numbers it. -/
def decodeTableWord (nbits w : Nat) : Option Instr :=
  match decode (tableFormat nbits w) (tableBytes (tableFormat nbits w) w) with
  | .ok i => some i
  | .error _ => none

end Sys2Proof
end

