-- ==== Sys2Proof/Config.lean ====
section
/-! DEFINITION. What the spec leaves open: the free values of 70_reset_and_hazards.md R251 and R261, and the
host's open parameters of 92_eei_decisions.md D22 to D25. -/

namespace Sys2Proof

/-- The free values of the register's 44 state bits, one for each draw: the power-up contents
(70_reset_and_hazards.md R251) and the fields an unstable input spoils (R261). Nothing is known of them, the
reserved codes included (log 9). -/
opaque Config.freeDraw : Nat → RegisterBits

/-- The open parameters of the HOST-SIDE functions (92_eei_decisions.md D22 to D25), which the model takes as an
argument. No function of the block takes them (00_scope.md R5). -/
structure Config.HostParams where
  /-- `MODE_NAME` for the named codes other than 0xE, whose name "DCV" is fixed (44_host_render.md R203, D22). -/
  modeName : Nibble → List Char
  /-- `PREFIX_SYMBOL` for the prefix codes other than NONE (44_host_render.md R209, D23). -/
  prefixSymbol : Code3 → List Char
  /-- `HOST_CHARSET`: the bytes the host outputs for a character (44_host_render.md R210, D24). -/
  charset : Char → List Byte
  /-- `HEX_FORMAT`: the hex text of a frame's twelve bytes (60_exceptions.md R222, D25). -/
  hexFormat : List Byte → List Char

end Sys2Proof
end

