-- ==== Sys2Proof/Machine/State.lean ====
section
/-! DEFINITION. The state of the machine as plain data: the result register `REG`, all the state the spec gives the
block (10_state.md R22, R31), and what the host drives at the input ports, since a step has no other argument (log 1). -/

namespace Sys2Proof.Machine

/-- The result register `REG` (10_state.md R22), field by field: 44 state bits. The fields are bits and not closed
lists of codes, because the power-up contents may hold reserved codes (70_reset_and_hazards.md R251). The reserved bits
47 to 44 of the reading word are no state (10_state.md R22). -/
structure Register where
  /-- `RDY`: a LOAD has happened since the last reset. -/
  rdy : Bool
  /-- `FOK`: the framing check of the last loaded frame. -/
  fok : Bool
  /-- `SIGN`: 1 = negative. -/
  sign : Bool
  /-- `MKN`: the mode is one of the named codes. -/
  mkn : Bool
  /-- `MODE`: the raw mode code. -/
  mode : Nibble
  /-- `DPR`: the raw decimal position. -/
  dpr : Nibble
  /-- `DP`: the adjusted decimal position. -/
  dp : Nibble
  /-- `DPS`: a point is shown. -/
  dps : Bool
  /-- `UNIT`: the unit code. -/
  unit : Code3
  /-- `PFX`: the prefix code. -/
  pfx : Code3
  /-- `UKN`: the unit is known. -/
  ukn : Bool
  /-- `D[0]`: the leftmost digit code. -/
  d0 : Nibble
  /-- `D[1]`. -/
  d1 : Nibble
  /-- `D[2]`. -/
  d2 : Nibble
  /-- `D[3]`. -/
  d3 : Nibble
  /-- `D[4]`: the rightmost digit code. -/
  d4 : Nibble
  deriving DecidableEq, Repr

/-- The value RESET leaves: every field 0 (10_state.md R33). -/
def Register.zero : Register where
  rdy := false
  fok := false
  sign := false
  mkn := false
  mode := 0
  dpr := 0
  dp := 0
  dps := false
  unit := 0
  pfx := 0
  ukn := false
  d0 := 0
  d1 := 0
  d2 := 0
  d3 := 0
  d4 := 0

/-- The input ports at one rising edge of `clk` (10_state.md R20): the levels sampled there, and which of them change
inside the setup and hold window around the edge (70_reset_and_hazards.md R261; log 8). -/
structure Inputs where
  /-- The level of `rst`. -/
  rst : Bool
  /-- The level of `load`. -/
  load : Bool
  /-- The level of `frame_in`. -/
  frame : Frame
  /-- `rst` changes inside the window. -/
  rstMoves : Bool
  /-- `load` changes inside the window. -/
  loadMoves : Bool
  /-- The bits of `frame_in` that change inside the window. -/
  frameMoves : Frame
  deriving DecidableEq, Repr

/-- Input ports that hold stable levels around the edge. -/
def Inputs.steady (rst load : Bool) (f : Frame) : Inputs where
  rst := rst
  load := load
  frame := f
  rstMoves := false
  loadMoves := false
  frameMoves := 0

/-- The machine's state. -/
structure State where
  /-- The result register, the block's only state (10_state.md R22). -/
  reg : Register
  /-- The input ports at the coming edge (10_state.md R20). -/
  pins : Inputs
  /-- What the host will drive before the following edges, the next first (60_exceptions.md R234; log 1). With nothing
  listed the levels stay as they are. -/
  upcoming : List Inputs
  /-- The MODEL's own: how many free values have been drawn (log 9). -/
  draws : Nat
  deriving DecidableEq, Repr

/-- Why the machine faults: never. "The FBP raises no exception, trap or fault" (60_exceptions.md R220), so the type
has no constructor. -/
inductive Fault : Type
  deriving DecidableEq, Repr

/-- Why the model declines. -/
inductive Refusal where
  /-- Raised by `exec` for an instruction that has no meaning yet; none is left. Safe: the model stops. -/
  | notModelled (mnemonic : String)
  /-- Raised by every observation of a register that holds a reserved digit, unit or prefix code (30_encoding.md R84;
  log 11): the reading, its rendering, an indication, the result and the report of a cycle with a frame.
  Safe: only power-up or unstable inputs put one there, and no step raises it. -/
  | reservedCode
  /-- Raised by rendering, and by the result and the report of a cycle with a frame, while `RDY = 0` (10_state.md R34;
  log 12). Safe: no step raises it. -/
  | noReading
  /-- Raised by rendering while `FOK = 0` (10_state.md R35, 44_host_render.md R201). Safe: no step raises it. -/
  | invalidFrame
  deriving DecidableEq, Repr

/-- The machine right after a RESET: `REG` all 0 (10_state.md R33), the host driving `rst = 0`
(70_reset_and_hazards.md R252). The levels of `load` and `frame_in`, the empty `upcoming` and the count of draws are
the model's (log 2). -/
def State.reset : State where
  reg := Register.zero
  pins := Inputs.steady false false 0
  upcoming := []
  draws := 0

end Sys2Proof.Machine
end

