-- ==== Sys2Proof/Machine/Operands.lean ====
section
/-! DEFINITION. The extractors of a frame (41_field_extract.md) and the codes a field of `REG` holds
(30_encoding.md R81 to R83). -/

namespace Sys2Proof.Machine

/-! ## Extractors -/

/-- The raw decimal position of a decimal-position field: `zext_4(field) + 1` (41_field_extract.md R110). -/
def rawPosition (dpf : Code3) : Nibble := dpf.setWidth 4 + 1

/-- `DPR(F)` (41_field_extract.md R110). -/
def dpr (f : Frame) : Nibble := rawPosition (dpField f)

/-- `MC(F)` (41_field_extract.md R112). -/
def modeCode (f : Frame) : Nibble := modeField f

/-- `SGN(F)` (41_field_extract.md R115). -/
def signBit (f : Frame) : Bool := signField f

/-- The digit code of the overflow marker (41_field_extract.md R118). -/
def overflowCode : Nibble := 0xA

/-- The digit code of a blank segment (41_field_extract.md R119). -/
def blankCode : Nibble := 0xB

/-- `DCODE(b)`, the three classes in the order of 30_encoding.md R78 (41_field_extract.md R117 to R119). -/
def dcode (b : Byte) : Nibble :=
  if 0x30#8 ≤ b ∧ b ≤ 0x39#8 then (b - 0x30#8).extractLsb' 0 4
  else if b = ovfByte then overflowCode
  else blankCode

/-- The digit code of one lane, `DCODE(F[5+lane])` (41_field_extract.md R120). -/
def laneCode (f : Frame) (lane : Fin 5) : Nibble := dcode (digitByte f lane)

/-! ## Units and prefixes -/

/-- The units of the source's table (30_encoding.md R82). -/
inductive MeterUnit where
  | none | a | degC | f | hz | v | ohm
  deriving DecidableEq, Repr

/-- The unit codes (30_encoding.md R82). -/
def unitCode : MeterUnit → Code3
  | .none => 0
  | .a => 1
  | .degC => 2
  | .f => 3
  | .hz => 4
  | .v => 5
  | .ohm => 6

/-- The unit a code names; 7 is reserved (30_encoding.md R82). -/
def unitOfCode (c : Code3) : Option MeterUnit :=
  match c.toNat with
  | 0 => some .none
  | 1 => some .a
  | 2 => some .degC
  | 3 => some .f
  | 4 => some .hz
  | 5 => some .v
  | 6 => some .ohm
  | _ => Option.none

/-- The prefixes the source names (30_encoding.md R83). -/
inductive MeterPrefix where
  | none | milli | micro | nano | kilo | mega
  deriving DecidableEq, Repr

/-- The prefix codes (30_encoding.md R83). -/
def prefixCode : MeterPrefix → Code3
  | .none => 0
  | .milli => 1
  | .micro => 2
  | .nano => 3
  | .kilo => 4
  | .mega => 5

/-- The prefix a code names; 6 and 7 are reserved (30_encoding.md R83). -/
def prefixOfCode (c : Code3) : Option MeterPrefix :=
  match c.toNat with
  | 0 => some .none
  | 1 => some .milli
  | 2 => some .micro
  | 3 => some .nano
  | 4 => some .kilo
  | 5 => some .mega
  | _ => Option.none

/-- What a digit code stands for (30_encoding.md R81). -/
inductive DigitSymbol where
  | digit (n : Nibble)
  | overflow
  | blank
  deriving DecidableEq, Repr

/-- The symbol of a digit code; 0xC to 0xF are reserved (30_encoding.md R81). -/
def symbolOfCode (d : Nibble) : Option DigitSymbol :=
  if d.toNat ≤ 9 then some (.digit d)
  else if d = overflowCode then some .overflow
  else if d = blankCode then some .blank
  else Option.none

end Sys2Proof.Machine
end

