-- ==== Sys2Proof/Machine/Flags.lean ====
section
/-! DEFINITION. The flags of `REG` a LOAD computes (10_state.md R32): `FOK`, `DPS`, `UKN`. `SIGN` is the extractor
`signBit`, `MKN` comes with the mode table, and `RDY` is always 1. -/

namespace Sys2Proof.Machine

/-- The framing check of a pair of bytes (40_validate.md R100). -/
def framingCheck (cmd lf : Byte) : Bool := cmd == cmdByte && lf == lfByte

/-- `FOK(F)` (40_validate.md R100). -/
def frameOk (f : Frame) : Bool := framingCheck (frameByte f 0) (frameByte f 11)

/-- `DPS = (0 <= dp and dp <= 3)`, on the table's integer (43_control.md R180, 90_conflicts.md C2). -/
def pointShown (dp : Int) : Bool := 0 ≤ dp && dp ≤ 3

/-- `UKN = (unit != NONE)` (43_control.md R180). -/
def unitKnown (u : MeterUnit) : Bool := u != .none

end Sys2Proof.Machine
end

