-- ==== Sys2Proof/Machine/ModeTable.lean ====
section
/-! DEFINITION. The mode, unit, prefix and decimal-position table, one definition per row (42_mode_table.md R141 to
R152), and the lookup over them (R140). `DP` is computed in Int, as R140 says. -/

namespace Sys2Proof.Machine

/-- What a row of the table gives (42_mode_table.md R140). -/
structure TableRow where
  mkn : Bool
  unit : MeterUnit
  pfx : MeterPrefix
  dp : Int
  deriving DecidableEq, Repr

/-- Mode 0x4, Generator (42_mode_table.md R141). -/
def rowGen (p : Int) : TableRow := ⟨true, .none, .none, p⟩

/-- Mode 0x5, Amps (42_mode_table.md R142). -/
def rowAmp (p : Int) : TableRow := ⟨true, .a, .none, p - 1⟩

/-- Mode 0x6, milliamps (42_mode_table.md R143). -/
def rowMamp (p : Int) : TableRow := ⟨true, .a, .milli, p⟩

/-- Mode 0x8, Temperature (42_mode_table.md R144). -/
def rowTemp (p : Int) : TableRow := ⟨true, .degC, .none, p⟩

/-- Mode 0x9, Capacitance (42_mode_table.md R145, R155). -/
def rowCap (p : Int) : TableRow :=
  if p < 4 then ⟨true, .f, .nano, p - 1⟩ else ⟨true, .f, .micro, p - 4⟩

/-- Mode 0xA, Frequency (42_mode_table.md R146). -/
def rowFreq (p : Int) : TableRow := ⟨true, .hz, .none, p⟩

/-- Mode 0xB, Diode (42_mode_table.md R147). -/
def rowDiode (p : Int) : TableRow := ⟨true, .v, .none, p - 1⟩

/-- Mode 0xC, Resistance (42_mode_table.md R148, R156). -/
def rowRes (p : Int) : TableRow :=
  if p = 1 then ⟨true, .ohm, .none, p + 1⟩
  else if p = 5 ∨ p = 6 then ⟨true, .ohm, .mega, p - 5⟩
  else ⟨true, .ohm, .kilo, p - 2⟩

/-- Mode 0xD, milliVolts (42_mode_table.md R149). -/
def rowMv (p : Int) : TableRow := ⟨true, .v, .milli, p⟩

/-- Mode 0xE, DC Volts (42_mode_table.md R150). -/
def rowDcv (p : Int) : TableRow := ⟨true, .v, .none, p - 1⟩

/-- Mode 0xF, AC Volts (42_mode_table.md R151). -/
def rowAcv (p : Int) : TableRow := ⟨true, .v, .none, p - 1⟩

/-- Modes 0x0, 0x1, 0x2, 0x3 and 0x7, unknown (42_mode_table.md R152). -/
def rowUnknown (p : Int) : TableRow := ⟨false, .none, .none, p⟩

/-- `MODE_TABLE(mc, p)` (42_mode_table.md R140). The last arm is the row "other: unknown" of the source's table. -/
def modeTable (mc : Nibble) (p : Int) : TableRow :=
  match mc.toNat with
  | 0x4 => rowGen p
  | 0x5 => rowAmp p
  | 0x6 => rowMamp p
  | 0x8 => rowTemp p
  | 0x9 => rowCap p
  | 0xA => rowFreq p
  | 0xB => rowDiode p
  | 0xC => rowRes p
  | 0xD => rowMv p
  | 0xE => rowDcv p
  | 0xF => rowAcv p
  | _ => rowUnknown p

end Sys2Proof.Machine
end

