-- ==== Sys2Proof/Machine/Ops.lean ====
section
/-! DEFINITION. The named operations: writing parts of `REG`, `DECODE` (43_control.md R180), the edge operations, the
output word, the free values of unstable inputs and of power-up, and the moves of the host. There is no
exception-taking operation: the block takes none (60_exceptions.md R220, R228). -/

namespace Sys2Proof.Machine

/-! ## Parts of the register -/

/-- The digit field of a lane (10_state.md R27). -/
def Register.digit (r : Register) (lane : Fin 5) : Nibble :=
  match lane with
  | 0 => r.d0
  | 1 => r.d1
  | 2 => r.d2
  | 3 => r.d3
  | 4 => r.d4

/-- The register with the digit field of a lane set. -/
def Register.withDigit (r : Register) (lane : Fin 5) (code : Nibble) : Register :=
  match lane with
  | 0 => { r with d0 := code }
  | 1 => { r with d1 := code }
  | 2 => { r with d2 := code }
  | 3 => { r with d3 := code }
  | 4 => { r with d4 := code }

/-- The register with the fields that a mode code, a raw position and a row of the mode table give (43_control.md
R180): `DP` is the low four bits of the row's integer. -/
def Register.withRow (r : Register) (mc p : Nibble) (row : TableRow) : Register :=
  { r with
    mkn := row.mkn
    mode := mc
    dpr := p
    dp := BitVec.ofInt 4 row.dp
    dps := pointShown row.dp
    unit := unitCode row.unit
    pfx := prefixCode row.pfx
    ukn := unitKnown row.unit }

/-! ## DECODE and the edge operations -/

/-- `DECODE(F)` (43_control.md R180): every field from the frame. -/
def decodeFrame (f : Frame) : Register :=
  let p := dpr f
  let mc := modeCode f
  let row := modeTable mc p.toNat
  { rdy := true
    fok := frameOk f
    sign := signBit f
    mkn := row.mkn
    mode := mc
    dpr := p
    dp := BitVec.ofInt 4 row.dp
    dps := pointShown row.dp
    unit := unitCode row.unit
    pfx := prefixCode row.pfx
    ukn := unitKnown row.unit
    d0 := laneCode f 0
    d1 := laneCode f 1
    d2 := laneCode f 2
    d3 := laneCode f 3
    d4 := laneCode f 4 }

/-- The state with `REG` written: every operation of an edge writes all of it or nothing (10_state.md R23). -/
def State.setReg (s : State) (r : Register) : State := { s with reg := r }

/-- LOAD of the frame `f` (43_control.md R181). -/
def State.loadFrame (s : State) (f : Frame) : State := s.setReg (decodeFrame f)

/-- RESET (43_control.md R183). -/
def State.clear (s : State) : State := s.setReg Register.zero

/-- LOAD of the frame at the port in which the framing check gives `ok`. -/
def State.loadFraming (s : State) (ok : Bool) : State :=
  s.setReg { decodeFrame s.pins.frame with fok := ok }

/-- LOAD of the frame at the port in which the mode field is `mc`, the decimal-position field is `dpf` and the mode
table answers with `row` of the raw position. -/
def State.loadMode (s : State) (mc : Nibble) (dpf : Code3) (row : Int → TableRow) : State :=
  s.setReg ((decodeFrame s.pins.frame).withRow mc (rawPosition dpf) (row (rawPosition dpf).toNat))

/-- LOAD of the frame at the port in which the digit code of a lane is `code`. -/
def State.loadDigit (s : State) (lane : Fin 5) (code : Nibble) : State :=
  s.setReg ((decodeFrame s.pins.frame).withDigit lane code)

/-- LOAD of the frame at the port in which the sign bit is `negative`. -/
def State.loadSign (s : State) (negative : Bool) : State :=
  s.setReg { decodeFrame s.pins.frame with sign := negative }

/-! ## The reading word -/

/-- The 44 state bits of a register, in the order of 30_encoding.md R80. -/
def Register.bits (r : Register) : RegisterBits :=
  BitVec.cast rfl
    (r.d4 ++ r.d3 ++ r.d2 ++ r.d1 ++ r.d0 ++ BitVec.ofBool r.ukn ++ r.pfx ++ r.unit ++ BitVec.ofBool r.dps ++ r.dp ++
      r.dpr ++ r.mode ++ BitVec.ofBool r.mkn ++ BitVec.ofBool r.sign ++ BitVec.ofBool r.fok ++ BitVec.ofBool r.rdy)

/-- `PACK(REG)`: the reading word, bits 47 to 44 always 0 (30_encoding.md R80). -/
def pack (r : Register) : ReadingWord := BitVec.cast rfl (0b0000#4 ++ r.bits)

/-- The register whose 44 state bits are `b`. -/
def Register.ofBits (b : RegisterBits) : Register where
  rdy := b.getLsbD 0
  fok := b.getLsbD 1
  sign := b.getLsbD 2
  mkn := b.getLsbD 3
  mode := b.extractLsb' 4 4
  dpr := b.extractLsb' 8 4
  dp := b.extractLsb' 12 4
  dps := b.getLsbD 16
  unit := b.extractLsb' 17 3
  pfx := b.extractLsb' 20 3
  ukn := b.getLsbD 23
  d0 := b.extractLsb' 24 4
  d1 := b.extractLsb' 28 4
  d2 := b.extractLsb' 32 4
  d3 := b.extractLsb' 36 4
  d4 := b.extractLsb' 40 4

/-- The output port `reading`: the value of `REG` at all times (10_state.md R21). -/
def State.reading (s : State) : ReadingWord := pack s.reg

/-! ## Free values -/

/-- The register of the next free draw (log 9). -/
def State.freeRegister (s : State) : Register := Register.ofBits (Config.freeDraw s.draws)

/-- Power-up, and power lost and restored: `REG` holds any value (70_reset_and_hazards.md R251; 60_exceptions.md R233;
log 7). It is no step: no edge of `clk` does it. -/
def State.powerCycle (s : State) : State :=
  { s with reg := s.freeRegister, draws := s.draws + 1 }

/-- The machine at power-up, before any RESET: `REG` is free (70_reset_and_hazards.md R251). The spec gives no level at
the input ports there: that the ports are those of `State.reset` (`rst = load = 0`, frame 0, nothing moving, no edge
planned) is a DESIGN CHOICE (log 2, log 7). -/
def State.powerUp : State := State.reset.powerCycle

/-- Whether some of the `len` bits from bit `lo` up change inside the window. -/
def moved (moves : Frame) (lo len : Nat) : Bool := moves.extractLsb' lo len != 0

/-- The mode field changes. -/
def modeMoved (moves : Frame) : Bool := moved moves 11 4

/-- The mode field or the decimal-position field changes: the fields that the mode table computes from both. -/
def tableMoved (moves : Frame) : Bool := moved moves 11 4 || moved moves 19 3

/-- The digit byte of a lane changes. -/
def laneMoved (moves : Frame) (lane : Fin 5) : Bool := moved moves (8 * (5 + lane.val)) 8

/-- A loaded register in which every field that depends on a changing bit of the frame takes the value of `free`
(70_reset_and_hazards.md R261). What a field depends on is read from 43_control.md R180 and the rules it names (log 8). -/
def Register.spoil (r free : Register) (moves : Frame) : Register where
  rdy := r.rdy
  fok := if moved moves 0 8 || moved moves 88 8 then free.fok else r.fok
  sign := if moved moves 36 1 then free.sign else r.sign
  mkn := if modeMoved moves then free.mkn else r.mkn
  mode := if modeMoved moves then free.mode else r.mode
  dpr := if moved moves 19 3 then free.dpr else r.dpr
  dp := if tableMoved moves then free.dp else r.dp
  dps := if tableMoved moves then free.dps else r.dps
  unit := if modeMoved moves then free.unit else r.unit
  pfx := if tableMoved moves then free.pfx else r.pfx
  ukn := if modeMoved moves then free.ukn else r.ukn
  d0 := if laneMoved moves 0 then free.d0 else r.d0
  d1 := if laneMoved moves 1 then free.d1 else r.d1
  d2 := if laneMoved moves 2 then free.d2 else r.d2
  d3 := if laneMoved moves 3 then free.d3 else r.d3
  d4 := if laneMoved moves 4 then free.d4 else r.d4

/-- What the stability of the inputs at the edge makes of the operation's result `t` (70_reset_and_hazards.md R261): a
changing `rst` or `load` frees every field; a changing frame frees, at a LOAD, the fields that depend on it; otherwise
the result stands. RESET and HOLD depend on no bit of the frame. -/
def settleEdge (c : Inputs) (t : State) : State :=
  if c.rstMoves || c.loadMoves then
    { t with reg := t.freeRegister, draws := t.draws + 1 }
  else if !c.rst && c.load && c.frameMoves != 0 then
    { t with reg := t.reg.spoil t.freeRegister c.frameMoves, draws := t.draws + 1 }
  else t

/-! ## The host's moves -/

/-- The inputs a host drives to have an instruction performed at an edge (60_exceptions.md R234): a CTRL row by its
control word; a row of a frame's part by a LOAD of a frame that holds it, every other bit 0. A don't-care frame is 0. -/
def inputsFor (i : Instr) : Inputs :=
  match i.format with
  | .ctrl => Inputs.steady (((encode i).headD 0).getLsbD 1) (((encode i).headD 0).getLsbD 0) (place i 0)
  | .selector _ => Inputs.steady false true (place i 0)

/-- The operation the block samples at an edge (30_encoding.md R75). -/
def Inputs.operation (c : Inputs) : Instr := decodeControl c.rst c.load c.frame

/-- The edge is over: the host drives the inputs of the next one, or leaves them as they are (log 1). -/
def State.nextInputs (s : State) : State :=
  match s.upcoming with
  | [] => s
  | c :: cs => { s with pins := c, upcoming := cs }

/-- One cycle of a stimulus program in the notation of 30_encoding.md R85: an operation, or `HOLD n`. -/
inductive StimulusLine where
  | one (i : Instr)
  | holdFor (n : Nat)
  deriving DecidableEq, Repr

/-- The lines R85 has: a CTRL operation, or `HOLD n` with `n >= 1`. -/
def StimulusLine.wellFormed : StimulusLine → Bool
  | .one i => i.format == .ctrl
  | .holdFor n => 1 ≤ n

/-- The edges of a line: `HOLD n` expands to `n` HOLD lines (30_encoding.md R85). -/
def StimulusLine.edges : StimulusLine → List Inputs
  | .one i => [inputsFor i]
  | .holdFor n => List.replicate n (inputsFor .hold)

/-- The edges of a stimulus program, in order (30_encoding.md R85). -/
def stimulusEdges (ls : List StimulusLine) : List Inputs := (ls.map StimulusLine.edges).flatten

/-- The machine with a host that drives the edges `cs`, the first of them at the coming edge. -/
def State.drivenBy (s : State) (cs : List Inputs) : State :=
  match cs with
  | [] => s
  | c :: rest => { s with pins := c, upcoming := rest }

end Sys2Proof.Machine
end

