-- ==== Sys2Proof/Machine/Control.lean ====
section
/-! DEFINITION. The meanings of the four CTRL rows: the operations of a clock edge (43_control.md R181 to R185). -/

namespace Sys2Proof.Machine

/-- HOLD (43_control.md R185): `REG <- REG`. -/
def execHold (s : State) : Host.Outcome State Fault Refusal := .next s

/-- LOAD (43_control.md R181): `REG <- DECODE(F)`, every field at once. -/
def execLoad (f : Frame) (s : State) : Host.Outcome State Fault Refusal := .next (s.loadFrame f)

/-- RESET (43_control.md R183): `REG <- 0`. -/
def execReset (s : State) : Host.Outcome State Fault Refusal := .next s.clear

/-- RESETLOAD (43_control.md R184): RESET is performed and the frame is not loaded. -/
def execResetLoad (_f : Frame) (s : State) : Host.Outcome State Fault Refusal := .next s.clear

end Sys2Proof.Machine
end

