-- ==== Sys2Proof/Machine/DigitLane.lean ====
section
/-! DEFINITION. The meanings of the DIGIT_LANE rows: the LOAD of the frame at the port with this digit in the lane (log 4). -/

namespace Sys2Proof.Machine

/-- DIGIT_0 (41_field_extract.md R117): `D[lane] = 0x0`. -/
def execDigit0 (lane : Fin 5) (s : State) : Host.Outcome State Fault Refusal := .next (s.loadDigit lane 0x0)

/-- DIGIT_1 (41_field_extract.md R117): `D[lane] = 0x1`. -/
def execDigit1 (lane : Fin 5) (s : State) : Host.Outcome State Fault Refusal := .next (s.loadDigit lane 0x1)

/-- DIGIT_2 (41_field_extract.md R117): `D[lane] = 0x2`. -/
def execDigit2 (lane : Fin 5) (s : State) : Host.Outcome State Fault Refusal := .next (s.loadDigit lane 0x2)

/-- DIGIT_3 (41_field_extract.md R117): `D[lane] = 0x3`. -/
def execDigit3 (lane : Fin 5) (s : State) : Host.Outcome State Fault Refusal := .next (s.loadDigit lane 0x3)

/-- DIGIT_4 (41_field_extract.md R117): `D[lane] = 0x4`. -/
def execDigit4 (lane : Fin 5) (s : State) : Host.Outcome State Fault Refusal := .next (s.loadDigit lane 0x4)

/-- DIGIT_5 (41_field_extract.md R117): `D[lane] = 0x5`. -/
def execDigit5 (lane : Fin 5) (s : State) : Host.Outcome State Fault Refusal := .next (s.loadDigit lane 0x5)

/-- DIGIT_6 (41_field_extract.md R117): `D[lane] = 0x6`. -/
def execDigit6 (lane : Fin 5) (s : State) : Host.Outcome State Fault Refusal := .next (s.loadDigit lane 0x6)

/-- DIGIT_7 (41_field_extract.md R117): `D[lane] = 0x7`. -/
def execDigit7 (lane : Fin 5) (s : State) : Host.Outcome State Fault Refusal := .next (s.loadDigit lane 0x7)

/-- DIGIT_8 (41_field_extract.md R117): `D[lane] = 0x8`. -/
def execDigit8 (lane : Fin 5) (s : State) : Host.Outcome State Fault Refusal := .next (s.loadDigit lane 0x8)

/-- DIGIT_9 (41_field_extract.md R117): `D[lane] = 0x9`. -/
def execDigit9 (lane : Fin 5) (s : State) : Host.Outcome State Fault Refusal := .next (s.loadDigit lane 0x9)

/-- OVERFLOW (41_field_extract.md R118): `D[lane] = 0xA`. -/
def execOverflow (lane : Fin 5) (s : State) : Host.Outcome State Fault Refusal := .next (s.loadDigit lane overflowCode)

/-- BLANK (41_field_extract.md R119): `D[lane] = 0xB`, whichever blank byte it is. -/
def execBlank (lane : Fin 5) (_b : Byte) (s : State) : Host.Outcome State Fault Refusal := .next (s.loadDigit lane blankCode)

end Sys2Proof.Machine
end

