-- ==== Sys2Proof/Machine/Framing.lean ====
section
/-! DEFINITION. The meanings of the FRAMING rows: the LOAD of the frame at the port with this framing selected (log 4). -/

namespace Sys2Proof.Machine

/-- FRAME_VALID (40_validate.md R100): `FOK = 1`. -/
def execFrameValid (s : State) : Host.Outcome State Fault Refusal := .next (s.loadFraming true)

/-- FRAME_INVALID (40_validate.md R101): the frame is loaded all the same, with `FOK = 0`. -/
def execFrameInvalid (_cmd _lf : Byte) (s : State) : Host.Outcome State Fault Refusal := .next (s.loadFraming false)

end Sys2Proof.Machine
end

