-- ==== Sys2Proof/Machine/ModeSelect.lean ====
section
/-! DEFINITION. The meanings of the MODE_SEL rows: the LOAD of the frame at the port with this row of the mode table selected
and the decimal-position field `dpf` (log 4). -/

namespace Sys2Proof.Machine

/-- MODE_0_UNKNOWN (42_mode_table.md R152). -/
def execMode0Unknown (dpf : Code3) (s : State) : Host.Outcome State Fault Refusal :=
  .next (s.loadMode 0x0 dpf rowUnknown)

/-- MODE_1_UNKNOWN (42_mode_table.md R152). -/
def execMode1Unknown (dpf : Code3) (s : State) : Host.Outcome State Fault Refusal :=
  .next (s.loadMode 0x1 dpf rowUnknown)

/-- MODE_2_UNKNOWN (42_mode_table.md R152). -/
def execMode2Unknown (dpf : Code3) (s : State) : Host.Outcome State Fault Refusal :=
  .next (s.loadMode 0x2 dpf rowUnknown)

/-- MODE_3_UNKNOWN (42_mode_table.md R152). -/
def execMode3Unknown (dpf : Code3) (s : State) : Host.Outcome State Fault Refusal :=
  .next (s.loadMode 0x3 dpf rowUnknown)

/-- MODE_4_GEN (42_mode_table.md R141). -/
def execMode4Gen (dpf : Code3) (s : State) : Host.Outcome State Fault Refusal :=
  .next (s.loadMode 0x4 dpf rowGen)

/-- MODE_5_AMP (42_mode_table.md R142). -/
def execMode5Amp (dpf : Code3) (s : State) : Host.Outcome State Fault Refusal :=
  .next (s.loadMode 0x5 dpf rowAmp)

/-- MODE_6_MAMP (42_mode_table.md R143). -/
def execMode6Mamp (dpf : Code3) (s : State) : Host.Outcome State Fault Refusal :=
  .next (s.loadMode 0x6 dpf rowMamp)

/-- MODE_7_UNKNOWN (42_mode_table.md R152). -/
def execMode7Unknown (dpf : Code3) (s : State) : Host.Outcome State Fault Refusal :=
  .next (s.loadMode 0x7 dpf rowUnknown)

/-- MODE_8_TEMP (42_mode_table.md R144). -/
def execMode8Temp (dpf : Code3) (s : State) : Host.Outcome State Fault Refusal :=
  .next (s.loadMode 0x8 dpf rowTemp)

/-- MODE_9_CAP (42_mode_table.md R145). -/
def execMode9Cap (dpf : Code3) (s : State) : Host.Outcome State Fault Refusal :=
  .next (s.loadMode 0x9 dpf rowCap)

/-- MODE_A_FREQ (42_mode_table.md R146). -/
def execModeAFreq (dpf : Code3) (s : State) : Host.Outcome State Fault Refusal :=
  .next (s.loadMode 0xA dpf rowFreq)

/-- MODE_B_DIODE (42_mode_table.md R147). -/
def execModeBDiode (dpf : Code3) (s : State) : Host.Outcome State Fault Refusal :=
  .next (s.loadMode 0xB dpf rowDiode)

/-- MODE_C_RES (42_mode_table.md R148). -/
def execModeCRes (dpf : Code3) (s : State) : Host.Outcome State Fault Refusal :=
  .next (s.loadMode 0xC dpf rowRes)

/-- MODE_D_MV (42_mode_table.md R149). -/
def execModeDMv (dpf : Code3) (s : State) : Host.Outcome State Fault Refusal :=
  .next (s.loadMode 0xD dpf rowMv)

/-- MODE_E_DCV (42_mode_table.md R150). -/
def execModeEDcv (dpf : Code3) (s : State) : Host.Outcome State Fault Refusal :=
  .next (s.loadMode 0xE dpf rowDcv)

/-- MODE_F_ACV (42_mode_table.md R151). -/
def execModeFAcv (dpf : Code3) (s : State) : Host.Outcome State Fault Refusal :=
  .next (s.loadMode 0xF dpf rowAcv)

end Sys2Proof.Machine
end

