-- ==== Sys2Proof/Machine/Sign.lean ====
section
/-! DEFINITION. The meanings of the SIGN rows: the LOAD of the frame at the port with this sign (log 4). -/

namespace Sys2Proof.Machine

/-- SIGN_POS (41_field_extract.md R115): `SIGN = 0`. -/
def execSignPos (s : State) : Host.Outcome State Fault Refusal := .next (s.loadSign false)

/-- SIGN_NEG (41_field_extract.md R115): `SIGN = 1`. -/
def execSignNeg (s : State) : Host.Outcome State Fault Refusal := .next (s.loadSign true)

end Sys2Proof.Machine
end

