-- ==== Sys2Proof/Machine/Dispatch.lean ====
section
/-! DEFINITION. The dispatch: one arm per row of spec/opcode_table.json, each one call of its meaning. -/

namespace Sys2Proof.Machine

def exec (i : Instr) (s : State) : Host.Outcome State Fault Refusal :=
  match i with
  | .hold => Sys2Proof.Machine.execHold s
  | .load f => Sys2Proof.Machine.execLoad f s
  | .reset => Sys2Proof.Machine.execReset s
  | .resetLoad f => Sys2Proof.Machine.execResetLoad f s
  | .frameValid => Sys2Proof.Machine.execFrameValid s
  | .frameInvalid cmd lf => Sys2Proof.Machine.execFrameInvalid cmd lf s
  | .mode0Unknown dpf => Sys2Proof.Machine.execMode0Unknown dpf s
  | .mode1Unknown dpf => Sys2Proof.Machine.execMode1Unknown dpf s
  | .mode2Unknown dpf => Sys2Proof.Machine.execMode2Unknown dpf s
  | .mode3Unknown dpf => Sys2Proof.Machine.execMode3Unknown dpf s
  | .mode4Gen dpf => Sys2Proof.Machine.execMode4Gen dpf s
  | .mode5Amp dpf => Sys2Proof.Machine.execMode5Amp dpf s
  | .mode6Mamp dpf => Sys2Proof.Machine.execMode6Mamp dpf s
  | .mode7Unknown dpf => Sys2Proof.Machine.execMode7Unknown dpf s
  | .mode8Temp dpf => Sys2Proof.Machine.execMode8Temp dpf s
  | .mode9Cap dpf => Sys2Proof.Machine.execMode9Cap dpf s
  | .modeAFreq dpf => Sys2Proof.Machine.execModeAFreq dpf s
  | .modeBDiode dpf => Sys2Proof.Machine.execModeBDiode dpf s
  | .modeCRes dpf => Sys2Proof.Machine.execModeCRes dpf s
  | .modeDMv dpf => Sys2Proof.Machine.execModeDMv dpf s
  | .modeEDcv dpf => Sys2Proof.Machine.execModeEDcv dpf s
  | .modeFAcv dpf => Sys2Proof.Machine.execModeFAcv dpf s
  | .digit0 lane => Sys2Proof.Machine.execDigit0 lane s
  | .digit1 lane => Sys2Proof.Machine.execDigit1 lane s
  | .digit2 lane => Sys2Proof.Machine.execDigit2 lane s
  | .digit3 lane => Sys2Proof.Machine.execDigit3 lane s
  | .digit4 lane => Sys2Proof.Machine.execDigit4 lane s
  | .digit5 lane => Sys2Proof.Machine.execDigit5 lane s
  | .digit6 lane => Sys2Proof.Machine.execDigit6 lane s
  | .digit7 lane => Sys2Proof.Machine.execDigit7 lane s
  | .digit8 lane => Sys2Proof.Machine.execDigit8 lane s
  | .digit9 lane => Sys2Proof.Machine.execDigit9 lane s
  | .overflow lane => Sys2Proof.Machine.execOverflow lane s
  | .blank lane b => Sys2Proof.Machine.execBlank lane b s
  | .signPos => Sys2Proof.Machine.execSignPos s
  | .signNeg => Sys2Proof.Machine.execSignNeg s

end Sys2Proof.Machine
end

