-- ==== Sys2Proof/Machine/Step.lean ====
section
/-! DEFINITION. One step: one rising edge of `clk` (43_control.md R186). -/

namespace Sys2Proof.Machine

/-- One rising edge: the operation the inputs select is performed, what unstable inputs spoil is free
(70_reset_and_hazards.md R261), and the host drives the next inputs. -/
def step (s : State) : Host.Outcome State Fault Refusal :=
  match exec s.pins.operation s with
  | .next t => .next (settleEdge s.pins t).nextInputs
  | .fault r => .fault r
  | .refused r => .refused r

/-- `s` with the instruction of a table word at the input ports, so that the next step performs it (log 3): the host
drives its control word and frame, stable around the edge, the instruction's bits above `nbits` zero. -/
def State.withFetchWord (s : State) (nbits w : Nat) : State :=
  match decodeTableWord nbits w with
  | some i => { s with pins := inputsFor i }
  | none => s

end Sys2Proof.Machine
end

