-- ==== Sys2Proof/Machine/HostView.lean ====
section
/-! DEFINITION. What the host sees of the register and how it prints it, OUTSIDE the block (00_scope.md R4): the
source's `DecodedReading` (10_state.md R24 to R28), the refusal of reserved codes (30_encoding.md R84) and the
reference renderer (44_host_render.md). No step uses these functions (log 16). -/

namespace Sys2Proof.Machine

/-! ## The reading in the source's form -/

/-- The source's `DecodedReading` (10_state.md R24 to R28). DESIGN CHOICE (log 24): it is the record of six parts of
43_control.md's opening, and `DPS` beside them, so it has neither `DPR` nor the raw `MODE` of an unknown mode, which R24 counts in it; the
register and the reading word keep both. -/
structure DecodedReading where
  /-- The code of a named mode, or none for "unknown" (10_state.md R25). -/
  mode : Option Nibble
  /-- The sign (10_state.md R32). -/
  negative : Bool
  /-- The five digits, the leftmost first (10_state.md R27). -/
  digits : List DigitSymbol
  /-- The adjusted decimal position, unclamped (10_state.md R28). -/
  position : Nat
  /-- A point is shown (10_state.md R28). -/
  point : Bool
  /-- The unit, or none for "absent" (10_state.md R26). -/
  unit : Option MeterUnit
  /-- The prefix (10_state.md R26). -/
  pfx : MeterPrefix
  deriving DecidableEq, Repr

/-- An observation of a register (30_encoding.md R84): its fields in the source's form; refused where a digit, the unit
or the prefix is a reserved code. DESIGN CHOICE (log 19, log 23): absence and "unknown" are taken from the flags, so
`UKN = 0` with a unit code other than 0, which only power-up or unstable inputs leave, reads as no unit, `UKN = 1` with
code 0 as the unit NONE, and `MKN = 1` with an unnamed code as that code; `DPR`, and `MODE` with
`MKN = 0`, are not in the reading (log 24). -/
def Register.observe (r : Register) : Host.Outcome DecodedReading Fault Refusal :=
  match symbolOfCode r.d0, symbolOfCode r.d1, symbolOfCode r.d2, symbolOfCode r.d3, symbolOfCode r.d4,
      unitOfCode r.unit, prefixOfCode r.pfx with
  | some c0, some c1, some c2, some c3, some c4, some u, some p =>
    .next
      { mode := if r.mkn then some r.mode else none
        negative := r.sign
        digits := [c0, c1, c2, c3, c4]
        position := r.dp.toNat
        point := r.dps
        unit := if r.ukn then some u else none
        pfx := p }
  | _, _, _, _, _, _, _ => .refused .reservedCode

/-- An observation that answers `v`: given where the register can be observed, else refused as `observe` refuses
(30_encoding.md R84, "it refuses every observation of such a word"). -/
def Register.whenObservable {α : Type} (r : Register) (v : α) : Host.Outcome α Fault Refusal :=
  match r.observe with
  | .next _ => .next v
  | .fault e => .fault e
  | .refused e => .refused e

/-! ## The renderer -/

/-- The error results of the whole system (60_exceptions.md R224). -/
inductive HostError where
  | openError | configError | writeError | timeoutError | selectError | lineError | shortReadError
  | invalidFrameError | modeNotSet | unitNotSet
  deriving DecidableEq, Repr

/-- The spec's numeric codes (60_exceptions.md R224); code 0, "none", is that of `HostResult.none`. -/
def HostError.code : HostError → Nat
  | .openError => 1
  | .configError => 2
  | .writeError => 3
  | .timeoutError => 4
  | .selectError => 5
  | .lineError => 6
  | .shortReadError => 7
  | .invalidFrameError => 8
  | .modeNotSet => 9
  | .unitNotSet => 10

/-- The classes of the error results (60_exceptions.md R224, column "class"). -/
inductive ErrorClass where
  | setupFatal | perExchange | soft
  deriving DecidableEq, Repr

/-- The class of an error (60_exceptions.md R224). -/
def HostError.errorClass : HostError → ErrorClass
  | .openError => .setupFatal
  | .configError => .setupFatal
  | .writeError => .perExchange
  | .timeoutError => .perExchange
  | .selectError => .perExchange
  | .lineError => .perExchange
  | .shortReadError => .perExchange
  | .invalidFrameError => .perExchange
  | .modeNotSet => .soft
  | .unitNotSet => .soft

/-- Who raises an error (60_exceptions.md R224, column "raised by"). -/
inductive ErrorOrigin where
  | transportOpen | transportExchange | fbpLoad | hostRender
  deriving DecidableEq, Repr

/-- Who raises an error (60_exceptions.md R224). -/
def HostError.origin : HostError → ErrorOrigin
  | .openError => .transportOpen
  | .configError => .transportOpen
  | .writeError => .transportExchange
  | .timeoutError => .transportExchange
  | .selectError => .transportExchange
  | .lineError => .transportExchange
  | .shortReadError => .transportExchange
  | .invalidFrameError => .fbpLoad
  | .modeNotSet => .hostRender
  | .unitNotSet => .hostRender

/-- The closed type of results, codes 0 to 10 (60_exceptions.md R224): no error ("a valid frame was loaded") or one. -/
inductive HostResult where
  | none
  | error (e : HostError)
  deriving DecidableEq, Repr

/-- The code of a result (60_exceptions.md R224). -/
def HostResult.code : HostResult → Nat
  | .none => 0
  | .error e => e.code

/-- The class of a result; the table gives code 0 none (60_exceptions.md R224). -/
def HostResult.errorClass : HostResult → Option ErrorClass
  | .none => Option.none
  | .error e => some e.errorClass

/-- Whether a register shows the FBP's indication of a result (60_exceptions.md R224, column "FBP indication"; R221, R223);
`none` where the table gives the result no indication, and the register is then not looked at. An observation, so refused
on a reserved code (30_encoding.md R84). -/
def HostResult.indication (x : HostResult) (r : Register) : Host.Outcome (Option Bool) Fault Refusal :=
  match x with
  | .none => r.whenObservable (some (r.rdy && r.fok))
  | .error .invalidFrameError => r.whenObservable (some (r.rdy && !r.fok))
  | .error .modeNotSet => r.whenObservable (some (!r.mkn))
  | .error .unitNotSet => r.whenObservable (some (!r.ukn))
  | .error .openError => .next Option.none
  | .error .configError => .next Option.none
  | .error .writeError => .next Option.none
  | .error .timeoutError => .next Option.none
  | .error .selectError => .next Option.none
  | .error .lineError => .next Option.none
  | .error .shortReadError => .next Option.none

/-- The source's `RenderOptions` (44_host_render.md R200). -/
structure RenderOptions where
  showMode : Bool
  showUnit : Bool
  deriving DecidableEq, Repr

/-- A rendered string and its soft diagnostics (44_host_render.md R200). -/
structure Rendered where
  text : List Char
  diags : List HostError
  deriving DecidableEq, Repr

/-- `MODE_NAME` (44_host_render.md R203): "DCV" for 0xE, the host's parameter for the other codes; for an unnamed code,
which only a register that no LOAD wrote shows here, the parameter too (DESIGN CHOICE, log 23). -/
def modeName (hp : Config.HostParams) (mc : Nibble) : List Char :=
  if mc = 0xE then ['D', 'C', 'V'] else hp.modeName mc

/-- `PREFIX_SYMBOL` (44_host_render.md R209): empty for NONE, the host's parameter for the others. -/
def prefixSymbol (hp : Config.HostParams) (p : MeterPrefix) : List Char :=
  match p with
  | .none => []
  | .milli => hp.prefixSymbol (prefixCode .milli)
  | .micro => hp.prefixSymbol (prefixCode .micro)
  | .nano => hp.prefixSymbol (prefixCode .nano)
  | .kilo => hp.prefixSymbol (prefixCode .kilo)
  | .mega => hp.prefixSymbol (prefixCode .mega)

/-- `UNIT_SYMBOL` (44_host_render.md R210); NONE has no symbol and is printed as `?`. -/
def unitSymbol (u : MeterUnit) : List Char :=
  match u with
  | .none => ['?']
  | .a => ['A']
  | .degC => ['°', 'C']
  | .f => ['F']
  | .hz => ['H', 'z']
  | .v => ['V']
  | .ohm => ['Ω']

/-- `CHAR(d)` (44_host_render.md R208). -/
def digitChar (d : DigitSymbol) : Char :=
  match d with
  | .digit n => Char.ofNat (0x30 + n.toNat)
  | .overflow => 'L'
  | .blank => ' '

/-- The digit part from index `i` on: each character, and the point right after the one at index `position`
(44_host_render.md R200, R207). DESIGN CHOICE (log 23): where `point` and `position` disagree, as only in a register that
no stable LOAD or RESET wrote, R200's pseudocode is followed, so position 4 with `point` puts a point after the last
digit, which R207 excludes for the registers a LOAD writes. -/
def digitText (point : Bool) (position : Nat) : Nat → List DigitSymbol → List Char
  | _, [] => []
  | i, d :: ds =>
    digitChar d :: (if point && i == position then ['.'] else []) ++ digitText point position (i + 1) ds

/-- The mode part and its diagnostic (44_host_render.md R202, R204). -/
def modePart (hp : Config.HostParams) (showMode : Bool) (mode : Option Nibble) : Rendered :=
  if showMode then
    match mode with
    | some mc => ⟨modeName hp mc ++ [' '], []⟩
    | none => ⟨['?', ' '], [.modeNotSet]⟩
  else ⟨[], []⟩

/-- The sign part (44_host_render.md R205). -/
def signPart (negative : Bool) : List Char := if negative then ['-'] else []

/-- The unit part and its diagnostic (44_host_render.md R206). -/
def unitPart (hp : Config.HostParams) (showUnit : Bool) (p : MeterPrefix) (unit : Option MeterUnit) : Rendered :=
  if showUnit then
    match unit with
    | some u => ⟨' ' :: prefixSymbol hp p ++ unitSymbol u, []⟩
    | none => ⟨[' ', '?'], [.unitNotSet]⟩
  else ⟨[], []⟩

/-- `RENDER` on a reading (44_host_render.md R200): mode, sign, digits, unit, in this order. -/
def DecodedReading.render (d : DecodedReading) (hp : Config.HostParams) (o : RenderOptions) : Rendered :=
  let m := modePart hp o.showMode d.mode
  let u := unitPart hp o.showUnit d.pfx d.unit
  ⟨m.text ++ signPart d.negative ++ digitText d.point d.position 0 d.digits ++ u.text, m.diags ++ u.diags⟩

/-- The host's call of `RENDER` (44_host_render.md R201): refused while `RDY = 0` (10_state.md R34), while `FOK = 0`
(10_state.md R35) and where the register holds a reserved code (30_encoding.md R84). -/
def Register.render (r : Register) (hp : Config.HostParams) (o : RenderOptions) : Host.Outcome Rendered Fault Refusal :=
  if !r.rdy then .refused .noReading
  else if !r.fok then .refused .invalidFrame
  else
    match r.observe with
    | .next d => .next (d.render hp o)
    | .fault e => .fault e
    | .refused e => .refused e

/-- The bytes the host outputs for a text, by `HOST_CHARSET` (44_host_render.md R210). -/
def hostBytes (hp : Config.HostParams) (text : List Char) : List Byte := (text.map hp.charset).flatten

end Sys2Proof.Machine
end

