-- ==== Sys2Proof/Machine/HostCycle.lean ====
section
/-! DEFINITION. The host's cycle around the block, OUTSIDE it (00_scope.md R4): what an exchange hands on, what the host
drives for it and what it reports (60_exceptions.md R221 to R226, R235). No step uses these functions (log 16). -/

namespace Sys2Proof.Machine

/-- How opening the session went (60_exceptions.md R224, codes 1 and 2). -/
inductive OpenOutcome where
  | opened | cannotOpen | cannotConfigure
  deriving DecidableEq, Repr

/-- The error of opening the session, if any (60_exceptions.md R224). -/
def openError : OpenOutcome → Option HostError
  | .opened => none
  | .cannotOpen => some .openError
  | .cannotConfigure => some .configError

/-- How the wait for the line ended (60_exceptions.md R224, codes 4 to 6). -/
inductive WaitOutcome where
  | ready | timedOut | failed | lineCondition
  deriving DecidableEq, Repr

/-- What happened on the line in one exchange: how many bytes of the request were written, how the wait ended, which
bytes the read gave. The serial transport itself is out of scope (00_scope.md R4). -/
structure Exchange where
  written : Nat
  wait : WaitOutcome
  bytes : List Byte
  deriving DecidableEq, Repr

/-- The result of an exchange: a whole frame or one error, in the order of the source's steps (60_exceptions.md R225:
write, wait, read; causes R224). -/
def Exchange.result (x : Exchange) : Except HostError Frame :=
  if x.written != 1 then .error .writeError
  else
    match x.wait with
    | .timedOut => .error .timeoutError
    | .failed => .error .selectError
    | .lineCondition => .error .lineError
    | .ready =>
      match frameOfBytes x.bytes with
      | some f => .ok f
      | none => .error .shortReadError

/-- What the host drives for a cycle (60_exceptions.md R226): LOAD of the frame of a successful exchange; no LOAD, that
is HOLD, for a failed one. -/
def cycleInputs (x : Except HostError Frame) : Inputs :=
  match x with
  | .ok f => inputsFor (.load f)
  | .error _ => inputsFor .hold

/-- The result of a cycle (60_exceptions.md R224, R225), from the exchange's result and the register the host reads after
the edge: the transport error; else InvalidFrameError where `RDY = 1` and `FOK = 0`; else none. The soft diagnostics
stand beside it, in the report (R223: "not a hard failure"). A reserved code refuses it (30_encoding.md R84). DESIGN
CHOICE (log 12): refused too where the exchange succeeded but the register reads `RDY = 0`, which only an unstable edge
leaves and which no code of R224 fits. -/
def cycleResult (x : Except HostError Frame) (r : Register) : Host.Outcome HostResult Fault Refusal :=
  match x with
  | .error e => .next (.error e)
  | .ok _ =>
    if !r.rdy then .refused .noReading
    else r.whenObservable (if r.fok then .none else .error .invalidFrameError)

/-- What the host outputs for a cycle: a line (empty for a failed cycle, 44_host_render.md R212), the errors and
diagnostics in order, and the detail of an InvalidFrameError. -/
structure CycleReport where
  line : List Char
  errors : List HostError
  detail : List Char
  deriving DecidableEq, Repr

/-- The host's report of a cycle, from the exchange's result and the register it reads after the edge, by the priority
of 60_exceptions.md R225: a transport error; else InvalidFrameError with the hex of the host's own copy of the frame
(R221, R222); else the rendered reading with its soft diagnostics. A reserved code refuses it (30_encoding.md R84), and
so does `RDY = 0` after a successful exchange (DESIGN CHOICE, log 12). -/
def cycleReport (hp : Config.HostParams) (o : RenderOptions) (x : Except HostError Frame) (r : Register) :
    Host.Outcome CycleReport Fault Refusal :=
  match x with
  | .error e => .next ⟨[], [e], []⟩
  | .ok f =>
    if r.rdy && !r.fok then r.whenObservable ⟨[], [.invalidFrameError], hp.hexFormat (bytesOfFrame f)⟩
    else
      match r.render hp o with
      | .next t => .next ⟨t.text, t.diags, []⟩
      | .fault e => .fault e
      | .refused e => .refused e

end Sys2Proof.Machine
end

