-- ==== Sys2Proof/Safety.lean ====
section
/-! DEFINITION. What claims use: the legal values of the register (10_state.md R22, R33), the host that keeps its inputs
stable (70_reset_and_hazards.md R261), and the invariant of a run with such a host. -/

namespace Sys2Proof.Machine

/-- The legal values of a loaded register: "legal values" of 10_state.md R22 with `DPR` from 1 up, `DPS` exactly when
`DP` is in 0 to 3 (R28), `UKN` exactly when `UNIT` is not NONE (R22), `MKN` for the 11 named codes (R22, R25). -/
def Register.loadedLegal (r : Register) : Bool :=
  r.rdy && 1 ≤ r.dpr.toNat && r.dpr.toNat ≤ 8 && r.dp.toNat ≤ 8 && (r.dps == decide (r.dp.toNat ≤ 3)) &&
    r.unit.toNat ≤ 6 && r.pfx.toNat ≤ 5 && (r.ukn == (r.unit != 0)) &&
    (r.mkn == (4 ≤ r.mode.toNat && r.mode.toNat != 7)) &&
    r.d0.toNat ≤ 11 && r.d1.toNat ≤ 11 && r.d2.toNat ≤ 11 && r.d3.toNat ≤ 11 && r.d4.toNat ≤ 11

/-- A legal register: the value RESET leaves (10_state.md R33) or a loaded one. -/
def Register.legal (r : Register) : Bool := r == Register.zero || r.loadedLegal

/-- No input changes inside the window of the edge (70_reset_and_hazards.md R261). -/
def Inputs.stable (c : Inputs) : Bool := !c.rstMoves && !c.loadMoves && c.frameMoves == 0

/-- The host keeps the inputs stable at the coming edge and at every later one it has planned. -/
def State.hostStable (s : State) : Bool := s.pins.stable && s.upcoming.all Inputs.stable

/-- The invariant: the register is legal, and the host keeps its inputs stable. -/
def State.Inv (s : State) : Prop := s.reg.legal = true ∧ s.hostStable = true

/-- The register holds a reserved digit, unit or prefix code (30_encoding.md R81 to R84). -/
def Register.hasReservedCode (r : Register) : Bool :=
  12 ≤ r.d0.toNat || 12 ≤ r.d1.toNat || 12 ≤ r.d2.toNat || 12 ≤ r.d3.toNat || 12 ≤ r.d4.toNat ||
    7 ≤ r.unit.toNat || 6 ≤ r.pfx.toNat

/-- The register shows a reading: a frame that passed the framing check has been loaded (44_host_render.md R201), and no
code is reserved (30_encoding.md R84). -/
def Register.shows (r : Register) : Bool := r.rdy && r.fok && !r.hasReservedCode

end Sys2Proof.Machine
end

