-- ==== Sys2Proof/Certificates/Slice0/Obligations.lean ====
section
/-! DEFINITION. The statements for the provers. Each docstring names the rules of spec/ it formalises. -/

namespace Sys2Proof.Claims

open Sys2Proof Sys2Proof.Machine

/-- `t` is `s` with only the result register written. -/
def OnlyReg (s t : State) : Prop :=
  t.pins = s.pins ∧ t.upcoming = s.upcoming ∧ t.draws = s.draws

/-- The fields other than the eight of the mode table agree. -/
def SameButTable (r q : Register) : Prop :=
  r.rdy = q.rdy ∧ r.fok = q.fok ∧ r.sign = q.sign ∧ ∀ lane, r.digit lane = q.digit lane

/-- The eight fields of the mode table agree. -/
def SameTable (r q : Register) : Prop :=
  r.mkn = q.mkn ∧ r.mode = q.mode ∧ r.dpr = q.dpr ∧ r.dp = q.dp ∧ r.dps = q.dps ∧ r.unit = q.unit ∧ r.pfx = q.pfx ∧
    r.ukn = q.ukn

/-- What a register holds of the mode table: the code, the known flag, the unit and its flag, and, of the raw position
`p`, the position, the prefix, the adjusted position and the point flag. -/
def HoldsRow (r : Register) (code : Nibble) (mkn : Bool) (unit : Code3) (pfx : Nat → Code3) (dp : Nat → Nat) (p : Nat) :
    Prop :=
  r.mode = code ∧ r.mkn = mkn ∧ r.unit = unit ∧ (r.ukn = true ↔ unit ≠ 0) ∧ r.dpr.toNat = p ∧ r.pfx = pfx p ∧
    r.dp.toNat = dp p ∧ (r.dps = true ↔ dp p ≤ 3)

/-- A row of the mode table (the template of 42_mode_table.md): `F[1][6:3] = code` encodes it, and a LOAD of any frame
with that mode field, in any state, writes what the row gives of `p`, the decimal-position field plus 1. -/
def TableRowClaim (code : Nibble) (row : Code3 → Instr) (mkn : Bool) (unit : Code3) (pfx : Nat → Code3)
    (dp : Nat → Nat) : Prop :=
  ∀ (f : Frame) (s : State), modeField f = code →
    select .modeSel f = row (dpField f) ∧
      ∃ t, exec (.load f) s = .next t ∧ HoldsRow t.reg code mkn unit pfx dp ((dpField f).toNat + 1)

/-- A MODE_SEL row as an instruction (log 4): it runs in every state, and leaves the LOAD of the frame at the port with
the table's eight fields as the row gives them. -/
def RowRuns (code : Nibble) (row : Code3 → Instr) (mkn : Bool) (unit : Code3) (pfx : Nat → Code3) (dp : Nat → Nat) :
    Prop :=
  ∀ (dpf : Code3) (s : State), ∃ t, exec (row dpf) s = .next t ∧
    HoldsRow t.reg code mkn unit pfx dp (dpf.toNat + 1) ∧ SameButTable t.reg (decodeFrame s.pins.frame) ∧ OnlyReg s t

/-- A DIGIT_LANE row as an instruction (log 4): it runs in every state, its lane holds the code, the other lanes and
fields are those of the frame at the port. -/
def DigitRow (row : Fin 5 → Instr) (code : Nibble) : Prop :=
  ∀ (lane : Fin 5) (s : State), ∃ t, exec (row lane) s = .next t ∧ t.reg.digit lane = code ∧
    (∀ other, other ≠ lane → t.reg.digit other = (decodeFrame s.pins.frame).digit other) ∧
    t.reg.rdy = true ∧ t.reg.fok = (decodeFrame s.pins.frame).fok ∧ t.reg.sign = (decodeFrame s.pins.frame).sign ∧
    SameTable t.reg (decodeFrame s.pins.frame) ∧ OnlyReg s t

/-- The bits of the port that a selector reads (30_encoding.md R70, R71). -/
def selectorMask : Selector → Frame
  | .framing => 0xFF00000000000000000000FF#96
  | .modeSel => 0x000000000000000000387800#96
  | .sign => 0x000000000000001000000000#96
  | .digitLane lane => 0xFF#96 <<< (8 * (5 + lane.val))

/-- The bits of the mode field, `F[1][6:3]` (30_encoding.md R71). -/
def modeMask : Frame := 0x7800#96

/-- The bits of the decimal-position field, `F[2][5:3]` (30_encoding.md R71). -/
def positionMask : Frame := 0x380000#96

/-- The control byte of the levels at the ports: `CTRL = {rst, load}` (30_encoding.md R75) in bits 1 and 0, the rest 0
(log 6). -/
def controlByte (c : Inputs) : Byte := (BitVec.ofBool c.rst ++ BitVec.ofBool c.load).setWidth 8

/-- `CHAR(d)` on the codes a LOAD writes (44_host_render.md R208). -/
def codeChar (d : Nibble) : Char :=
  if d.toNat ≤ 9 then Char.ofNat (0x30 + d.toNat) else if d.toNat = 10 then 'L' else ' '

/-- Neither `rst` nor `load` is driven at the edge, or moves there; the frame may (43_control.md R185). -/
def idle (c : Inputs) : Bool := !c.rst && !c.load && !c.rstMoves && !c.loadMoves

end Sys2Proof.Claims

open Sys2Proof Sys2Proof.Machine Sys2Proof.Claims

/-! ## The operations of an edge -/

/-- 43_control.md R183: RESET clears every field, in every state, and reading is then 0; `CTRL = 0b10` selects it, and
the edge performs it (with a moving frame: SteadyControlDecidesTheEdge). -/
def Obligations.ResetClearsEveryField : Prop :=
  (∀ c : Inputs, c.rst = true → c.load = false → c.operation = .reset) ∧
    ∀ s : State, ∃ t, exec .reset s = .next t ∧
      t.reg.rdy = false ∧ t.reg.fok = false ∧ t.reg.sign = false ∧ t.reg.mkn = false ∧ t.reg.mode = 0 ∧
      t.reg.dpr = 0 ∧ t.reg.dp = 0 ∧ t.reg.dps = false ∧ t.reg.unit = 0 ∧ t.reg.pfx = 0 ∧ t.reg.ukn = false ∧
      (∀ lane, t.reg.digit lane = 0) ∧ t.reading = 0x000000000000#48 ∧ OnlyReg s t ∧
      (s.pins.stable = true → s.pins.rst = true → s.pins.load = false → step s = .next t.nextInputs)

/-- 43_control.md R184: with `rst = 1` and `load = 1` the edge performs RESET and the frame is not loaded (with a
moving frame: SteadyControlDecidesTheEdge). -/
def Obligations.ResetWinsOverLoad : Prop :=
  (∀ c : Inputs, c.rst = true → c.load = true → c.operation = .resetLoad c.frame) ∧
    (∀ (f : Frame) (s : State), exec (.resetLoad f) s = exec .reset s ∧
      ∃ t, exec (.resetLoad f) s = .next t ∧ t.reading = 0x000000000000#48 ∧ OnlyReg s t) ∧
    ∀ s : State, s.pins.stable = true → s.pins.rst = true → s.pins.load = true →
      ∃ t, step s = .next t ∧ t.reading = 0x000000000000#48

/-- 43_control.md R185: HOLD keeps the register whatever `frame_in` holds; `CTRL = 0b00` selects it. -/
def Obligations.HoldKeepsTheRegister : Prop :=
  (∀ c : Inputs, c.rst = false → c.load = false → c.operation = .hold) ∧
    (∀ s : State, ∃ t, exec .hold s = .next t ∧ t.reg = s.reg ∧ OnlyReg s t) ∧
    ∀ s : State, s.pins.rst = false → s.pins.load = false → s.pins.rstMoves = false → s.pins.loadMoves = false →
      ∃ t, step s = .next t ∧ t.reg = s.reg

/-- 43_control.md R181: LOAD writes every field from the frame alone: in any two states it leaves the same register,
loaded, and nothing but the register is written; `CTRL = 0b01` selects it, and the edge performs it. -/
def Obligations.LoadCapturesTheFrameAlone : Prop :=
  (∀ c : Inputs, c.rst = false → c.load = true → c.operation = .load c.frame) ∧
    ∀ (f : Frame) (s s' : State), ∃ t t', exec (.load f) s = .next t ∧ exec (.load f) s' = .next t' ∧
      t.reg = decodeFrame f ∧ t.reading = pack (decodeFrame f) ∧ t'.reg = t.reg ∧ t.reg.rdy = true ∧ OnlyReg s t ∧
      (s.pins.stable = true → s.pins.rst = false → s.pins.load = true → s.pins.frame = f →
        step s = .next t.nextInputs) ∧
      (f = 0x0A0034333231300000087089#96 → t.reading = 0x0432108B12EB#48)

/-- 43_control.md R186 with 30_encoding.md R75: the step function, at every edge with stable inputs. -/
def Obligations.StepIsTheStepFunction : Prop :=
  ∀ s : State, s.pins.stable = true → ∃ t, step s = .next t ∧
    t.reg = (if s.pins.rst then Register.zero else if s.pins.load then decodeFrame s.pins.frame else s.reg) ∧
    t.reading = pack t.reg ∧ t.draws = s.draws

/-- 43_control.md R183 to R185 at an edge whose control inputs are steady: a frame that moves disturbs neither RESET
(with or without `load`) nor HOLD, and no free value is drawn. That 70_reset_and_hazards.md R261 frees no field at such
a RESET is the model's reading (log 8). -/
def Obligations.SteadyControlDecidesTheEdge : Prop :=
  ∀ s : State, s.pins.rstMoves = false → s.pins.loadMoves = false →
    (s.pins.rst = true → ∃ t, step s = .next t ∧ t.reg = Register.zero ∧ t.reading = 0x000000000000#48 ∧
      t.draws = s.draws ∧ t = s.clear.nextInputs) ∧
    (s.pins.rst = false → s.pins.load = false → ∃ t, step s = .next t ∧ t.reg = s.reg ∧ t.reading = s.reading ∧
      t.draws = s.draws ∧ t = s.nextInputs)

/-- 43_control.md R187: no state and no input, stable or not, keeps an edge from completing. The second clause, that no
instruction stops, ranges over the selector rows too, which are instructions by the model's choice (log 4). -/
def Obligations.EveryEdgeCompletes : Prop :=
  (∀ s : State, ∃ t, step s = .next t) ∧ ∀ (i : Instr) (s : State), ∃ t, exec i s = .next t

/-- 60_exceptions.md R236 and 10_state.md R24: an edge with stable control inputs changes the reading word only where
the host drove RESET or LOAD. -/
def Obligations.ReadingChangesOnlyAtResetOrLoad : Prop :=
  ∀ s t : State, s.pins.rstMoves = false → s.pins.loadMoves = false → step s = .next t →
    t.reading ≠ s.reading → s.pins.rst = true ∨ s.pins.load = true

/-- 10_state.md R24, 30_encoding.md R85: over any number of edges at which the host drives neither `rst` nor `load`,
the register keeps its value. For more edges than the host has planned it leans on the model's choice that the levels
then stay as they are (log 1). -/
def Obligations.RegisterIsConstantOverHolds : Prop :=
  ∀ (n : Nat) (s : State), idle s.pins = true → s.upcoming.all idle = true →
    ∃ t, Host.Core.run Sys2Proof.core n s = .next t ∧ t.reg = s.reg ∧ t.reading = s.reading ∧ t.draws = s.draws

/-- 20_memory.md R59: the same LOAD applied twice gives the same register both times. -/
def Obligations.LoadTwiceIsLoadOnce : Prop :=
  ∀ (f : Frame) (s : State), ∃ t, exec (.load f) s = .next t ∧ exec (.load f) t = .next t

/-- The frame of every instruction (10_state.md R23, R31): only the register is written; HOLD writes nothing; what any
other instruction leaves in the register does not depend on what was there. That the selector rows are instructions,
LOADs that keep nothing of the register, is the model's choice (log 4), and so are the fields it says are kept: the
ports and the host's plan (log 1), the count of draws (log 9). -/
def Obligations.InstructionsWriteOnlyTheRegister : Prop :=
  (∀ (i : Instr) (s t : State), exec i s = .next t → OnlyReg s t) ∧
    ∀ (i : Instr) (s t : State) (r : Register), i ≠ .hold → exec i s = .next t → exec i (s.setReg r) = .next t

/-! ## Field extraction -/

/-- 40_validate.md R100: `FOK` after a LOAD is 1 exactly when byte 0 is 0x89 and byte 11 is 0x0A. -/
def Obligations.FramingCheckNeedsBothMarkers : Prop :=
  ∀ (f : Frame) (s : State), ∃ t, exec (.load f) s = .next t ∧
    (t.reg.fok = true ↔ f.extractLsb' 0 8 = 0x89#8 ∧ f.extractLsb' 88 8 = 0x0A#8)

/-- 40_validate.md R102: `FOK` depends on bytes 0 and 11 only, and no other field depends on them. -/
def Obligations.FramingAndReadingAreIndependent : Prop :=
  (∀ (f g : Frame) (s : State), frameByte f 0 = frameByte g 0 → frameByte f 11 = frameByte g 11 →
      ∃ t u, exec (.load f) s = .next t ∧ exec (.load g) s = .next u ∧ t.reg.fok = u.reg.fok) ∧
    ∀ (f g : Frame) (s : State), (∀ i, 1 ≤ i → i ≤ 10 → frameByte f i = frameByte g i) →
      ∃ t u, exec (.load f) s = .next t ∧ exec (.load g) s = .next u ∧
        SameTable t.reg u.reg ∧ t.reg.sign = u.reg.sign ∧ ∀ lane, t.reg.digit lane = u.reg.digit lane

/-- 41_field_extract.md R110: `DPR` after a LOAD is `((frame[2] >> 3) & 0x7) + 1`, from 1 to 8. -/
def Obligations.RawPositionIsTheFieldPlusOne : Prop :=
  ∀ (f : Frame) (s : State), ∃ t, exec (.load f) s = .next t ∧
    t.reg.dpr.toNat = ((frameByte f 2 >>> 3) &&& 0x7#8).toNat + 1 ∧ 1 ≤ t.reg.dpr.toNat ∧ t.reg.dpr.toNat ≤ 8

/-- 41_field_extract.md R112 and R113: `MODE` after a LOAD is `(frame[1] >> 3) & 0xF`, and the bytes that select a
code are the 16 values of R113. -/
def Obligations.ModeCodeIsItsField : Prop :=
  ∀ (f : Frame) (s : State), ∃ t, exec (.load f) s = .next t ∧
    t.reg.mode.setWidth 8 = (frameByte f 1 >>> 3) &&& 0xF#8 ∧
    ∀ c : Nibble, (t.reg.mode = c ↔ frameByte f 1 &&& 0x78#8 = c.setWidth 8 <<< 3) ∧
      (t.reg.mode = c ↔ ∃ x : Byte, (x ≤ 0x07#8 ∨ (0x80#8 ≤ x ∧ x ≤ 0x87#8)) ∧
        frameByte f 1 = (c.setWidth 8 <<< 3) ||| x)

/-- 41_field_extract.md R115: `SIGN` after a LOAD is bit 0x10 of byte 4, whatever the rest of the frame holds. -/
def Obligations.SignIsBitFourOfByteFour : Prop :=
  ∀ (f : Frame) (s : State), ∃ t, exec (.load f) s = .next t ∧
    (t.reg.sign = true ↔ frameByte f 4 &&& 0x10#8 ≠ 0) ∧
    ∀ g : Frame, frameByte g 4 &&& 0x10#8 = frameByte f 4 &&& 0x10#8 →
      ∃ u, exec (.load g) s = .next u ∧ u.reg.sign = t.reg.sign

/-- 41_field_extract.md R117, R118 and R119: the three classes of a digit byte, in every lane of a loaded frame. -/
def Obligations.DigitLanesHoldTheirClass : Prop :=
  ∀ (f : Frame) (s : State), ∃ t, exec (.load f) s = .next t ∧
    ∀ lane : Fin 5,
      let b := frameByte f (5 + lane.val)
      if 0x30 ≤ b.toNat ∧ b.toNat ≤ 0x39 then (t.reg.digit lane).toNat = b.toNat - 0x30
      else if b.toNat = 0x3E then t.reg.digit lane = 0xA
      else t.reg.digit lane = 0xB

/-- 41_field_extract.md R120: each lane depends on its own byte only, `D[0]` on `F[5]` to `D[4]` on `F[9]`, and all
lanes map alike. -/
def Obligations.LanesAreIndependentAndAlike : Prop :=
  (∀ (f g : Frame) (s : State) (lane lane' : Fin 5), frameByte f (5 + lane.val) = frameByte g (5 + lane'.val) →
      ∃ t u, exec (.load f) s = .next t ∧ exec (.load g) s = .next u ∧ t.reg.digit lane = u.reg.digit lane') ∧
    ∀ (f : Frame) (s : State), ∃ t, exec (.load f) s = .next t ∧
      t.reg.d0 = dcode (f.extractLsb' 40 8) ∧ t.reg.d1 = dcode (f.extractLsb' 48 8) ∧
      t.reg.d2 = dcode (f.extractLsb' 56 8) ∧ t.reg.d3 = dcode (f.extractLsb' 64 8) ∧
      t.reg.d4 = dcode (f.extractLsb' 72 8)

/-- 30_encoding.md R72: two frames that agree in the bits R70 gives a field load alike. -/
def Obligations.UnusedBitsDoNotMatter : Prop :=
  ∀ (f g : Frame) (s : State), f &&& 0xFF00FFFFFFFFFF10003878FF#96 = g &&& 0xFF00FFFFFFFFFF10003878FF#96 →
    ∃ t, exec (.load f) s = .next t ∧ exec (.load g) s = .next t

/-! ## The mode table -/

/-- 42_mode_table.md R143, R144, R146 and R149: the rows with a unit whose position is unchanged. -/
def Obligations.UnchangedPositionRows : Prop :=
  TableRowClaim 0x6 .mode6Mamp true 1 (fun _ => 1) (fun p => p) ∧
    TableRowClaim 0x8 .mode8Temp true 2 (fun _ => 0) (fun p => p) ∧
    TableRowClaim 0xA .modeAFreq true 4 (fun _ => 0) (fun p => p) ∧
    TableRowClaim 0xD .modeDMv true 5 (fun _ => 1) (fun p => p)

/-- 42_mode_table.md R142, R147, R150 and R151: the rows that subtract 1 from the raw position. -/
def Obligations.MinusOneRows : Prop :=
  TableRowClaim 0x5 .mode5Amp true 1 (fun _ => 0) (fun p => p - 1) ∧
    TableRowClaim 0xB .modeBDiode true 5 (fun _ => 0) (fun p => p - 1) ∧
    TableRowClaim 0xE .modeEDcv true 5 (fun _ => 0) (fun p => p - 1) ∧
    TableRowClaim 0xF .modeFAcv true 5 (fun _ => 0) (fun p => p - 1)

/-- 42_mode_table.md R145 and R155: capacitance, nano below raw position 4 and micro from it on. -/
def Obligations.CapacitanceRow : Prop :=
  TableRowClaim 0x9 .mode9Cap true 3 (fun p => if p < 4 then 3 else 2) (fun p => if p < 4 then p - 1 else p - 4)

/-- 42_mode_table.md R148 and R156: resistance, three sub-cases of the raw position. -/
def Obligations.ResistanceRow : Prop :=
  TableRowClaim 0xC .modeCRes true 6 (fun p => if p = 1 then 0 else if p = 5 ∨ p = 6 then 5 else 4)
    (fun p => if p = 1 then 2 else if p = 5 ∨ p = 6 then p - 5 else p - 2)

/-- 42_mode_table.md R141: Generator has no unit, its position is unchanged, and the host that shows the unit prints
`?` and raises UnitNotSet. -/
def Obligations.GeneratorRow : Prop :=
  TableRowClaim 0x4 .mode4Gen true 0 (fun _ => 0) (fun p => p) ∧
    ∀ (f : Frame) (s t : State) (d : DecodedReading) (hp : Config.HostParams) (m : Bool), modeField f = 0x4 →
      exec (.load f) s = .next t → t.reg.observe = .next d →
        (d.render hp ⟨m, true⟩).text.getLast? = some '?' ∧ (d.render hp ⟨m, true⟩).diags = [.unitNotSet]

/-- 42_mode_table.md R152: the five unknown codes have no unit and an unchanged position, and the host raises
ModeNotSet where it shows the mode and UnitNotSet where it shows the unit. -/
def Obligations.UnknownRows : Prop :=
  (TableRowClaim 0x0 .mode0Unknown false 0 (fun _ => 0) (fun p => p) ∧
      TableRowClaim 0x1 .mode1Unknown false 0 (fun _ => 0) (fun p => p) ∧
      TableRowClaim 0x2 .mode2Unknown false 0 (fun _ => 0) (fun p => p) ∧
      TableRowClaim 0x3 .mode3Unknown false 0 (fun _ => 0) (fun p => p) ∧
      TableRowClaim 0x7 .mode7Unknown false 0 (fun _ => 0) (fun p => p)) ∧
    ∀ (f : Frame) (s t : State) (d : DecodedReading) (hp : Config.HostParams) (m u : Bool),
      modeField f ∈ [0x0#4, 0x1#4, 0x2#4, 0x3#4, 0x7#4] → exec (.load f) s = .next t → t.reg.observe = .next d →
        (d.render hp ⟨m, u⟩).diags =
          (if m then [HostError.modeNotSet] else []) ++ (if u then [HostError.unitNotSet] else [])

/-- The sixteen MODE_SEL rows as instructions (the model's choice, log 4; their effects are those of 42_mode_table.md
R141 to R152). -/
def Obligations.ModeRowInstructions : Prop :=
  RowRuns 0x0 .mode0Unknown false 0 (fun _ => 0) (fun p => p) ∧
    RowRuns 0x1 .mode1Unknown false 0 (fun _ => 0) (fun p => p) ∧
    RowRuns 0x2 .mode2Unknown false 0 (fun _ => 0) (fun p => p) ∧
    RowRuns 0x3 .mode3Unknown false 0 (fun _ => 0) (fun p => p) ∧
    RowRuns 0x4 .mode4Gen true 0 (fun _ => 0) (fun p => p) ∧
    RowRuns 0x5 .mode5Amp true 1 (fun _ => 0) (fun p => p - 1) ∧
    RowRuns 0x6 .mode6Mamp true 1 (fun _ => 1) (fun p => p) ∧
    RowRuns 0x7 .mode7Unknown false 0 (fun _ => 0) (fun p => p) ∧
    RowRuns 0x8 .mode8Temp true 2 (fun _ => 0) (fun p => p) ∧
    RowRuns 0x9 .mode9Cap true 3 (fun p => if p < 4 then 3 else 2) (fun p => if p < 4 then p - 1 else p - 4) ∧
    RowRuns 0xA .modeAFreq true 4 (fun _ => 0) (fun p => p) ∧
    RowRuns 0xB .modeBDiode true 5 (fun _ => 0) (fun p => p - 1) ∧
    RowRuns 0xC .modeCRes true 6 (fun p => if p = 1 then 0 else if p = 5 ∨ p = 6 then 5 else 4)
      (fun p => if p = 1 then 2 else if p = 5 ∨ p = 6 then p - 5 else p - 2) ∧
    RowRuns 0xD .modeDMv true 5 (fun _ => 1) (fun p => p) ∧
    RowRuns 0xE .modeEDcv true 5 (fun _ => 0) (fun p => p - 1) ∧
    RowRuns 0xF .modeFAcv true 5 (fun _ => 0) (fun p => p - 1)

/-- 42_mode_table.md R157: the adjusted position of every loaded frame is the table's integer, unwrapped, in 0 to 8;
where it is 0 and where 8, by the mode and the raw position. -/
def Obligations.PositionRangeOfTheTable : Prop :=
  ∀ (f : Frame) (s : State), ∃ t, exec (.load f) s = .next t ∧
    (t.reg.dp.toNat : Int) = (modeTable t.reg.mode t.reg.dpr.toNat).dp ∧ t.reg.dp.toNat ≤ 8 ∧
    (t.reg.dp.toNat = 0 ↔
      (t.reg.dpr.toNat = 1 ∧ t.reg.mode ∈ [0x5#4, 0xB#4, 0xE#4, 0xF#4]) ∨
        (t.reg.mode = 0x9 ∧ (t.reg.dpr.toNat = 1 ∨ t.reg.dpr.toNat = 4)) ∨
        (t.reg.mode = 0xC ∧ (t.reg.dpr.toNat = 2 ∨ t.reg.dpr.toNat = 5))) ∧
    (t.reg.dp.toNat = 8 ↔ t.reg.dpr.toNat = 8 ∧ t.reg.mode ∉ [0x5#4, 0x9#4, 0xB#4, 0xC#4, 0xE#4, 0xF#4])

/-- 42_mode_table.md R158: what a LOAD writes from the table depends on the mode field and the decimal-position field
alone. -/
def Obligations.TableFieldsDependOnTwoFields : Prop :=
  ∀ (f g : Frame) (s : State), modeField f = modeField g → dpField f = dpField g →
    ∃ t u, exec (.load f) s = .next t ∧ exec (.load g) s = .next u ∧ SameTable t.reg u.reg

/-! ## The rows of the other formats -/

/-- 40_validate.md R101: a frame that fails the check is still loaded, with `FOK = 0` and the other fields exactly as
for a valid frame; the host reports InvalidFrameError and does not use them. The host's clause rests on
44_host_render.md R212 (an empty line) and 60_exceptions.md R221, R222 (the frame's hex), and that a call of the renderer
is refused by name is the model's choice (log 12). -/
def Obligations.InvalidFrameIsLoaded : Prop :=
  ∀ (f : Frame) (s : State), isInvalidFraming (frameByte f 0) (frameByte f 11) = true →
    ∃ t, exec (.load f) s = .next t ∧ t.reg.rdy = true ∧ t.reg.fok = false ∧
      (∀ g : Frame, (∀ i, 1 ≤ i → i ≤ 10 → frameByte g i = frameByte f i) → frameOk g = true →
        t.reg = { decodeFrame g with fok := false }) ∧
      ∀ (hp : Config.HostParams) (o : RenderOptions), t.reg.render hp o = .refused .invalidFrame ∧
        cycleReport hp o (.ok f) t.reg = .next ⟨[], [.invalidFrameError], hp.hexFormat (bytesOfFrame f)⟩

/-- The rows FRAME_VALID and FRAME_INVALID as instructions (the model's choice, log 4): `FOK` is 1 and 0 (40_validate.md
R100, R101), the other fields are those of the frame at the port. -/
def Obligations.FramingRows : Prop :=
  (∀ f : Frame, frameByte f 0 = 0x89#8 → frameByte f 11 = 0x0A#8 → select .framing f = .frameValid) ∧
    (∀ s : State, ∃ t, exec .frameValid s = .next t ∧ t.reg.rdy = true ∧ t.reg.fok = true ∧
      t.reg = { decodeFrame s.pins.frame with fok := true } ∧ OnlyReg s t) ∧
    ∀ (cmd lf : Byte) (s : State), isInvalidFraming cmd lf = true →
      ∃ t, exec (.frameInvalid cmd lf) s = .next t ∧ t.reg.rdy = true ∧ t.reg.fok = false ∧
        t.reg = { decodeFrame s.pins.frame with fok := false } ∧ OnlyReg s t

/-- The rows DIGIT_0 to DIGIT_9 as instructions (the model's choice, log 4; codes of 41_field_extract.md R117). -/
def Obligations.DigitRows : Prop :=
  DigitRow .digit0 0x0 ∧ DigitRow .digit1 0x1 ∧ DigitRow .digit2 0x2 ∧ DigitRow .digit3 0x3 ∧ DigitRow .digit4 0x4 ∧
    DigitRow .digit5 0x5 ∧ DigitRow .digit6 0x6 ∧ DigitRow .digit7 0x7 ∧ DigitRow .digit8 0x8 ∧ DigitRow .digit9 0x9

/-- The rows OVERFLOW and BLANK as instructions (the model's choice, log 4): 0xA and, whichever blank byte it is, 0xB
(41_field_extract.md R118, R119). -/
def Obligations.OverflowAndBlankRows : Prop :=
  DigitRow .overflow 0xA ∧ ∀ b : Byte, isBlankByte b = true → DigitRow (fun lane => .blank lane b) 0xB

/-- The rows SIGN_POS and SIGN_NEG as instructions (the model's choice, log 4): only the sign is theirs
(41_field_extract.md R115). -/
def Obligations.SignRows : Prop :=
  ∀ s : State,
    (∃ t, exec .signPos s = .next t ∧ t.reg.sign = false ∧ t.reg = { decodeFrame s.pins.frame with sign := false } ∧
      OnlyReg s t) ∧
    ∃ t, exec .signNeg s = .next t ∧ t.reg.sign = true ∧ t.reg = { decodeFrame s.pins.frame with sign := true } ∧
      OnlyReg s t

/-! ## Encoding -/

/-- 30_encoding.md R70, R75, R77 to R79: decoding the encoded bytes of a well-formed instruction gives it back. The lists
in which the bytes stand are the model's layouts (log 6). -/
def Obligations.DecodeOfEncodeIsTheInstruction : Prop :=
  ∀ i : Instr, WellFormed i = true → decode i.format (encode i) = .ok i

/-- 30_encoding.md R70 to R72: an instruction of a frame's part, put in place on the port, is read back from there, and
no bit that another selector reads is touched. -/
def Obligations.PlacedSelectorIsReadBack : Prop :=
  ∀ (i : Instr) (k : Selector) (f : Frame), WellFormed i = true → i.format = .selector k →
    select k (place i f) = i ∧ place i f &&& ~~~(selectorMask k) = f &&& ~~~(selectorMask k)

/-- 30_encoding.md R77 to R79: every frame selects one well-formed row of each format, and putting that row back in
place changes nothing: no bit that a selector reads is lost. -/
def Obligations.SelectedRowHoldsItsBits : Prop :=
  ∀ (k : Selector) (f : Frame), WellFormed (select k f) = true ∧ (select k f).format = .selector k ∧
    place (select k f) f = f

/-- What the decoder accepts is a well-formed instruction of the format it was asked for (30_encoding.md R75 to R79: every
value of a selector selects a row), and it accepts exactly the format's number of bytes, with a control byte below 4:
these lengths and this bound are the model's layouts (log 6), for the spec gives none. -/
def Obligations.DecoderAcceptsExactlyItsFormat : Prop :=
  ∀ (fmt : Format) (bs : List Byte),
    (∀ i, decode fmt bs = .ok i → WellFormed i = true ∧ i.format = fmt) ∧
    ((∃ i, decode fmt bs = .ok i) ↔ bs.length = fmt.length ∧ (fmt = .ctrl → (bs.headD 0).toNat < 4))

/-- Words whose bytes are those of 30_encoding.md R75, R77, R78, R79 and 41_field_extract.md R115. That the bytes stand in
these lists, and that the lane is the format's, is the model's layout (log 6): the spec gives none. -/
def Obligations.WordsFromTheEncodingTables : Prop :=
  decode .ctrl [0x01, 0x89, 0x70, 0x08, 0x00, 0x00, 0x30, 0x31, 0x32, 0x33, 0x34, 0x00, 0x0A] =
      .ok (.load 0x0A0034333231300000087089#96) ∧
    decode (.selector .modeSel) [0x70, 0x08] = .ok (.modeEDcv 1) ∧
    decode (.selector (.digitLane 2)) [0x37] = .ok (.digit7 2) ∧
    decode (.selector .framing) [0x89, 0x0A] = .ok .frameValid ∧
    decode (.selector .sign) [0x10] = .ok .signNeg

/-- 30_encoding.md R80: the layout of the reading word, bits 47 to 44 always 0. -/
def Obligations.ReadingWordLayout : Prop :=
  ∀ s : State, s.reading.getLsbD 0 = s.reg.rdy ∧ s.reading.getLsbD 1 = s.reg.fok ∧ s.reading.getLsbD 2 = s.reg.sign ∧
    s.reading.getLsbD 3 = s.reg.mkn ∧ s.reading.extractLsb' 4 4 = s.reg.mode ∧ s.reading.extractLsb' 8 4 = s.reg.dpr ∧
    s.reading.extractLsb' 12 4 = s.reg.dp ∧ s.reading.getLsbD 16 = s.reg.dps ∧
    s.reading.extractLsb' 17 3 = s.reg.unit ∧ s.reading.extractLsb' 20 3 = s.reg.pfx ∧
    s.reading.getLsbD 23 = s.reg.ukn ∧ s.reading.extractLsb' 24 4 = s.reg.d0 ∧ s.reading.extractLsb' 28 4 = s.reg.d1 ∧
    s.reading.extractLsb' 32 4 = s.reg.d2 ∧ s.reading.extractLsb' 36 4 = s.reg.d3 ∧
    s.reading.extractLsb' 40 4 = s.reg.d4 ∧ s.reading.extractLsb' 44 4 = 0

/-- 10_state.md R21, R22, 30_encoding.md R80: the reading word and the 44 state bits determine the register. -/
def Obligations.ReadingWordDeterminesTheRegister : Prop :=
  (∀ r q : Register, pack r = pack q → r = q) ∧ ∀ b : RegisterBits, (Register.ofBits b).bits = b

/-! ## The machine as a whole -/

/-- The model's choice of log 4 agrees with the block (20_memory.md R58, 43_control.md R180): every row of a frame's part
runs, and is the LOAD of the frame at the port with that part put in place. -/
def Obligations.SelectorRowIsALoad : Prop :=
  ∀ (i : Instr) (k : Selector) (s : State), WellFormed i = true → i.format = .selector k →
    ∃ t, exec i s = .next t ∧ exec (.load (place i s.pins.frame)) s = .next t

/-- 30_encoding.md R75, 43_control.md R186: where the control byte and the frame at the ports decode to an instruction,
a step with stable inputs is that instruction, and then the host drives the next inputs. That a control byte stands
before the twelve bytes of the frame is the model's layout (log 6), for R75 gives the two bits of `CTRL` alone; the next
inputs are the model's (log 1). -/
def Obligations.StepRunsTheDecodedOperation : Prop :=
  ∀ (s : State) (i : Instr), s.pins.stable = true →
    decode .ctrl (controlByte s.pins :: bytesOfFrame s.pins.frame) = .ok i → WellFormed i = true →
    ∃ t, exec i s = .next t ∧ step s = .next t.nextInputs

/-- 20_memory.md R58, 43_control.md R181 (with log 4's instructions): at a LOAD edge the step is every row
that the frame at the port selects. -/
def Obligations.LoadStepRunsEverySelectedRow : Prop :=
  ∀ (s : State) (k : Selector), s.pins.stable = true → s.pins.rst = false → s.pins.load = true →
    ∃ t, exec (select k s.pins.frame) s = .next t ∧ step s = .next t.nextInputs

/-- The model's own way to place a table word (log 3): the next step runs it, in every state. -/
def Obligations.PlacedTableWordRunsNext : Prop :=
  ∀ (s : State) (nbits w : Nat) (i : Instr), decodeTableWord nbits w = some i →
    ∃ t, exec i (s.withFetchWord nbits w) = .next t ∧ step (s.withFetchWord nbits w) = .next t.nextInputs ∧
      (s.withFetchWord nbits w).reg = s.reg

/-- 10_state.md R22, R28, R33: with a host that keeps its inputs stable, every step keeps the register legal. -/
def Obligations.StepKeepsTheInvariant : Prop :=
  ∀ s t : State, s.Inv → step s = .next t → t.Inv

/-- 10_state.md R33: the invariant holds after reset. That the inputs at `State.reset` are stable and no edge is planned is
the model's choice (log 2). -/
def Obligations.ResetMeetsTheInvariant : Prop := State.reset.Inv

/-- 10_state.md R22, 30_encoding.md R84: one stable LOAD or RESET makes any register legal, whatever it held, and the
reading is then observable. -/
def Obligations.LoadOrResetMakesTheRegisterLegal : Prop :=
  ∀ s : State, s.pins.stable = true → (s.pins.rst = true ∨ s.pins.load = true) →
    ∃ t d, step s = .next t ∧ t.reg.legal = true ∧ t.reg.observe = .next d

/-! ## Open values -/

/-- 70_reset_and_hazards.md R251 (the free draw is the model's, log 7, log 9): after power-up each of the 44 state bits
is that of a free value, bits 47 to 44 of the reading read 0, and one RESET edge clears it all. -/
def Obligations.PowerUpIsAFreeDraw : Prop :=
  ∀ s : State, s.powerCycle.reg.bits = Config.freeDraw s.draws ∧ s.powerCycle.draws = s.draws + 1 ∧
    s.powerCycle.reading.extractLsb' 44 4 = 0 ∧
    (s.pins.stable = true → s.pins.rst = true → ∃ t, step s.powerCycle = .next t ∧ t.reading = 0)

/-- 70_reset_and_hazards.md R261: where `rst` or `load` changes inside the window, every field is free. R261 speaks of an
edge with `load = 1` or `rst = 1`; that an edge whose sampled levels are both 0 frees every field too is the model's
reading (log 8), and the form of the free draw, `Config.freeDraw` by a counter, is the model's (log 9). -/
def Obligations.UnstableControlFreesEveryField : Prop :=
  ∀ s : State, (s.pins.rstMoves = true ∨ s.pins.loadMoves = true) →
    ∃ t, step s = .next t ∧ t.reg.bits = Config.freeDraw s.draws ∧ t.draws = s.draws + 1

/-- 70_reset_and_hazards.md R261 (log 8): at a LOAD whose frame changes inside the window, a field none of whose bits
changes holds the value it has in every frame the changing bits can make. -/
def Obligations.UnstableFrameKeepsIndependentFields : Prop :=
  ∀ (s : State) (g : Frame), s.pins.rst = false → s.pins.load = true → s.pins.rstMoves = false →
    s.pins.loadMoves = false → (g ^^^ s.pins.frame) &&& ~~~s.pins.frameMoves = 0 →
    ∃ t, step s = .next t ∧ t.reg.rdy = true ∧
      (s.pins.frameMoves &&& selectorMask .framing = 0 → t.reg.fok = (decodeFrame g).fok) ∧
      (s.pins.frameMoves &&& selectorMask .sign = 0 → t.reg.sign = (decodeFrame g).sign) ∧
      (s.pins.frameMoves &&& modeMask = 0 → t.reg.mode = (decodeFrame g).mode ∧ t.reg.mkn = (decodeFrame g).mkn ∧
        t.reg.unit = (decodeFrame g).unit ∧ t.reg.ukn = (decodeFrame g).ukn) ∧
      (s.pins.frameMoves &&& positionMask = 0 → t.reg.dpr = (decodeFrame g).dpr) ∧
      (s.pins.frameMoves &&& selectorMask .modeSel = 0 → t.reg.dp = (decodeFrame g).dp ∧
        t.reg.dps = (decodeFrame g).dps ∧ t.reg.pfx = (decodeFrame g).pfx) ∧
      ∀ lane, s.pins.frameMoves &&& selectorMask (.digitLane lane) = 0 →
        t.reg.digit lane = (decodeFrame g).digit lane

/-- 70_reset_and_hazards.md R261 (log 8, log 9): at a LOAD whose frame changes inside the window, a field one of whose
bits changes takes its own bits of the free value, at their places in the reading word, and one draw is counted. -/
def Obligations.UnstableFrameFreesDependentFields : Prop :=
  ∀ s : State, s.pins.rst = false → s.pins.load = true → s.pins.rstMoves = false → s.pins.loadMoves = false →
    s.pins.frameMoves ≠ 0 →
    let free := Config.freeDraw s.draws
    ∃ t, step s = .next t ∧ t.draws = s.draws + 1 ∧
      (s.pins.frameMoves &&& selectorMask .framing ≠ 0 → t.reg.fok = free.getLsbD 1) ∧
      (s.pins.frameMoves &&& selectorMask .sign ≠ 0 → t.reg.sign = free.getLsbD 2) ∧
      (s.pins.frameMoves &&& modeMask ≠ 0 → t.reg.mkn = free.getLsbD 3 ∧ t.reg.mode = free.extractLsb' 4 4 ∧
        t.reg.unit = free.extractLsb' 17 3 ∧ t.reg.ukn = free.getLsbD 23) ∧
      (s.pins.frameMoves &&& positionMask ≠ 0 → t.reg.dpr = free.extractLsb' 8 4) ∧
      (s.pins.frameMoves &&& selectorMask .modeSel ≠ 0 → t.reg.dp = free.extractLsb' 12 4 ∧
        t.reg.dps = free.getLsbD 16 ∧ t.reg.pfx = free.extractLsb' 20 3) ∧
      ∀ lane : Fin 5, s.pins.frameMoves &&& selectorMask (.digitLane lane) ≠ 0 →
        t.reg.digit lane = free.extractLsb' (24 + 4 * lane.val) 4

/-! ## The host's side (outside the block, log 16) -/

/-- 44_host_render.md R204 and R206: when the two soft diagnostics are raised. -/
def Obligations.SoftDiagnosticsOfARendering : Prop :=
  ∀ (r : Register) (d : DecodedReading) (hp : Config.HostParams) (o : RenderOptions), r.observe = .next d →
    (HostError.modeNotSet ∈ (d.render hp o).diags ↔ o.showMode = true ∧ r.mkn = false) ∧
    (HostError.unitNotSet ∈ (d.render hp o).diags ↔ o.showUnit = true ∧ r.ukn = false)

/-- 44_host_render.md R207 and R208: the digit part of a loaded register is its five characters, `CHAR(D[0])` to
`CHAR(D[4])`, and at most one point, right after the character of index `DP` when `DPS = 1`, that is when `DP` is 0 to
3; with neither mode nor unit shown, only the sign stands before it (R205). -/
def Obligations.DigitPartOfARendering : Prop :=
  ∀ (f : Frame) (d : DecodedReading), (decodeFrame f).observe = .next d →
    let text := digitText d.point d.position 0 d.digits
    let chars := d.digits.map digitChar
    chars = [0, 1, 2, 3, 4].map (fun lane : Fin 5 => codeChar ((decodeFrame f).digit lane)) ∧
    ((decodeFrame f).dps = true ↔ (decodeFrame f).dp.toNat ≤ 3) ∧
    (if (decodeFrame f).dp.toNat ≤ 3 then
      text = chars.take ((decodeFrame f).dp.toNat + 1) ++ ['.'] ++ chars.drop ((decodeFrame f).dp.toNat + 1)
    else text = chars) ∧
    ∀ hp : Config.HostParams, (d.render hp ⟨false, false⟩).text = (if (decodeFrame f).sign then ['-'] else []) ++ text

/-- 10_state.md R34, R35, 30_encoding.md R84, 44_host_render.md R201 (log 11, log 12): a rendering is refused before a
LOAD, after a frame that failed the check, and of a reserved code; otherwise it is given. -/
def Obligations.RenderingIsRefusedWithoutAReading : Prop :=
  ∀ (r : Register) (hp : Config.HostParams) (o : RenderOptions),
    (r.rdy = false → r.render hp o = .refused .noReading) ∧
    (r.rdy = true → r.fok = false → r.render hp o = .refused .invalidFrame) ∧
    (r.rdy = true → r.fok = true →
      ((r.unit = 7 ∨ 6 ≤ r.pfx.toNat ∨ ∃ lane, 12 ≤ (r.digit lane).toNat) ↔ r.render hp o = .refused .reservedCode)) ∧
    (r.rdy = true → r.fok = true → r.unit ≠ 7 → r.pfx.toNat ≤ 5 → (∀ lane, (r.digit lane).toNat ≤ 11) →
      ∃ t, r.render hp o = .next t)

/-- 60_exceptions.md R225 and R226: a failed exchange is no LOAD and keeps the register, and its error is all the host
reports; else a frame that fails the check reports InvalidFrameError only; else the soft diagnostics in their order. -/
def Obligations.CyclePriority : Prop :=
  ∀ (hp : Config.HostParams) (o : RenderOptions) (s : State),
    (∀ e : HostError, ∃ t, step { s with pins := cycleInputs (.error e) } = .next t ∧ t.reg = s.reg ∧
      cycleReport hp o (.error e) t.reg = .next ⟨[], [e], []⟩) ∧
    ∀ f : Frame, ∃ t, step { s with pins := cycleInputs (.ok f) } = .next t ∧ t.reg = decodeFrame f ∧
      ∃ rep, cycleReport hp o (.ok f) t.reg = .next rep ∧
        rep.errors =
          (if frameOk f then
            (if o.showMode && !t.reg.mkn then [HostError.modeNotSet] else []) ++
              (if o.showUnit && !t.reg.ukn then [HostError.unitNotSet] else [])
          else [HostError.invalidFrameError])

/-- 60_exceptions.md R225 and R226, with the causes of R224: the order of the errors within an exchange; a whole frame
of twelve bytes or one error, never a part of a frame. -/
def Obligations.ExchangeGivesAFrameOrOneError : Prop :=
  ∀ x : Exchange,
    (x.written ≠ 1 → x.result = .error .writeError) ∧
    (x.written = 1 → x.wait = .timedOut → x.result = .error .timeoutError) ∧
    (x.written = 1 → x.wait = .failed → x.result = .error .selectError) ∧
    (x.written = 1 → x.wait = .lineCondition → x.result = .error .lineError) ∧
    (x.written = 1 → x.wait = .ready → x.bytes.length ≠ 12 → x.result = .error .shortReadError) ∧
    (x.written = 1 → x.wait = .ready → x.bytes.length = 12 → ∃ f, x.result = .ok f ∧ bytesOfFrame f = x.bytes) ∧
    ∀ f, x.result = .ok f → bytesOfFrame f = x.bytes

/-- 60_exceptions.md R224, with R223 and R225: the classes and origins by code, codes that tell the results apart, and
the result of a cycle that loads a frame: code 0 where the frame is valid and 8 where it is not, each shown by its
indication in the register the edge leaves. -/
def Obligations.ResultsOfTheTaxonomy : Prop :=
  (∀ x y : HostResult, x.code ≤ 10 ∧ (x.code = y.code → x = y)) ∧
    (∀ e : HostError, 1 ≤ e.code ∧ (e.errorClass = .setupFatal ↔ e.code ≤ 2) ∧ (e.errorClass = .soft ↔ 9 ≤ e.code) ∧
      (e.errorClass = .perExchange ↔ 3 ≤ e.code ∧ e.code ≤ 8) ∧ (e.origin = .transportOpen ↔ e.code ≤ 2) ∧
      (e.origin = .transportExchange ↔ 3 ≤ e.code ∧ e.code ≤ 7) ∧ (e.origin = .fbpLoad ↔ e.code = 8) ∧
      (e.origin = .hostRender ↔ 9 ≤ e.code) ∧
      ∀ r : Register, (HostResult.error e).indication r = .next none ↔ e.code ≤ 7) ∧
    ∀ (f : Frame) (s : State), ∃ t, step { s with pins := cycleInputs (.ok f) } = .next t ∧
      (∃ x, cycleResult (.ok f) t.reg = .next x ∧ x.code = (if frameOk f then 0 else 8)) ∧
      HostResult.none.indication t.reg = .next (some (frameOk f)) ∧
      (HostResult.error .invalidFrameError).indication t.reg = .next (some (!frameOk f)) ∧
      (HostResult.error .modeNotSet).indication t.reg = .next (some (!t.reg.mkn)) ∧
      (HostResult.error .unitNotSet).indication t.reg = .next (some (!t.reg.ukn))

/-- 30_encoding.md R84 (log 11): a register with a reserved code is refused in every observation the model has, where
`RDY = 1` under that name (a rendering with `FOK = 0`: under its own, log 12); one without is observed. A result without
an indication does not look at the register. Where a cycle's frame left `RDY = 0`, its result and its report are refused
(the model's choice, log 12), and a rendering is given exactly where the register shows a reading. -/
def Obligations.ReservedCodesAreNeverObserved : Prop :=
  ∀ (r : Register) (hp : Config.HostParams) (o : RenderOptions) (f : Frame),
    (r.hasReservedCode = true ↔ r.observe = .refused .reservedCode) ∧
    (r.hasReservedCode = false ↔ ∃ d, r.observe = .next d) ∧
    (r.hasReservedCode = true →
      (∃ e, r.render hp o = .refused e) ∧
      (∀ x : HostResult, x.indication r = if 1 ≤ x.code ∧ x.code ≤ 7 then .next none else .refused .reservedCode) ∧
      (r.rdy = true → cycleResult (.ok f) r = .refused .reservedCode ∧
        cycleReport hp o (.ok f) r = .refused .reservedCode)) ∧
    (r.rdy = false → cycleResult (.ok f) r = .refused .noReading ∧ cycleReport hp o (.ok f) r = .refused .noReading) ∧
    (r.shows = true ↔ ∃ t, r.render hp o = .next t)
end

