-- ==== Sys2Proof/Laws/Decode.lean ====
section
/-! SUPPORT. The frame's bytes and the replaced bits of a frame, bit by bit. -/

namespace Sys2Proof

/-- A frame put together from its own twelve bytes is itself (20_memory.md R56). -/
theorem frameOfBytes_bytesOfFrame (f : Frame) : frameOfBytes (bytesOfFrame f) = some f := by
  have hb : bytesOfFrame f = [frameByte f 0, frameByte f 1, frameByte f 2, frameByte f 3, frameByte f 4, frameByte f 5,
    frameByte f 6, frameByte f 7, frameByte f 8, frameByte f 9, frameByte f 10, frameByte f 11] := rfl
  rw [hb]
  simp only [frameOfBytes, frameOf, frameByte, Option.some.injEq]
  apply BitVec.eq_of_getLsbD_eq
  intro i hi
  simp only [BitVec.getLsbD_append, BitVec.getLsbD_extractLsb']
  have h96 : i < 96 := hi
  clear hi hb
  interval_cases i <;> rfl

/-- Twelve bytes make a frame. -/
theorem frameOfBytes_of_length {bs : List Byte} (h : bs.length = 12) : ∃ f, frameOfBytes bs = some f := by
  match bs, h with
  | [_, _, _, _, _, _, _, _, _, _, _, _], _ => exact ⟨_, rfl⟩

/-- Only twelve bytes make a frame (30_encoding.md R74). -/
theorem length_of_frameOfBytes {bs : List Byte} {f : Frame} (h : frameOfBytes bs = some f) : bs.length = 12 := by
  unfold frameOfBytes at h
  split at h
  · rfl
  · cases h

/-- A bit of a frame with some bits replaced: the new bit inside, the old one outside. -/
theorem putBits_getLsbD (f : Frame) (lo : Nat) {n : Nat} (v : BitVec n) {i : Nat} (hi : i < 96) :
    (putBits f lo v).getLsbD i = if lo ≤ i ∧ i < lo + n then v.getLsbD (i - lo) else f.getLsbD i := by
  simp only [putBits, BitVec.getLsbD_or, BitVec.getLsbD_and, BitVec.getLsbD_not, BitVec.getLsbD_shiftLeft,
    BitVec.getLsbD_setWidth, BitVec.getLsbD_allOnes]
  by_cases h1 : lo ≤ i
  · by_cases h2 : i < lo + n
    · have e1 : i - lo < n := by omega
      have e2 : i - lo < 96 := by omega
      have e3 : ¬i < lo := by omega
      simp [hi, h1, h2, e1, e2, e3]
    · have e1 : ¬i - lo < n := by omega
      have e2 : v.getLsbD (i - lo) = false := BitVec.getLsbD_of_ge _ _ (by omega)
      simp [hi, h2, e1, e2]
  · have e1 : i < lo := by omega
    simp [hi, h1, e1]

/-- Replacing bits by themselves changes nothing. -/
theorem putBits_extractLsb' (f : Frame) (lo n : Nat) : putBits f lo (f.extractLsb' lo n) = f := by
  apply BitVec.eq_of_getLsbD_eq
  intro i hi
  rw [putBits_getLsbD _ _ _ hi]
  split
  · next h' => simp [show i - lo < n by omega, show lo + (i - lo) = i by omega]
  · rfl

/-- The mode field is a slice of byte 1 (30_encoding.md R70, R71). -/
theorem modeField_eq_byte (f : Frame) : modeField f = (frameByte f 1).extractLsb' 3 4 := by
  ext i hi
  have : i = 0 ∨ i = 1 ∨ i = 2 ∨ i = 3 := by omega
  rcases this with rfl | rfl | rfl | rfl <;> simp [modeField, frameByte]

/-- The decimal-position field is a slice of byte 2 (30_encoding.md R70, R71). -/
theorem dpField_eq_byte (f : Frame) : dpField f = (frameByte f 2).extractLsb' 3 3 := by
  ext i hi
  have : i = 0 ∨ i = 1 ∨ i = 2 := by omega
  rcases this with rfl | rfl | rfl <;> simp [dpField, frameByte]

/-- The sign flag is bit 4 of byte 4 (30_encoding.md R70, R71). -/
theorem signField_eq_byte (f : Frame) : signField f = (frameByte f 4).getLsbD 4 := by
  simp [signField, frameByte]

end Sys2Proof
end

