-- ==== Sys2Proof/Laws/State.lean ====
section
/-! SUPPORT. One lemma for each field after each update of the state and of the register. -/

namespace Sys2Proof.Machine

/-! ## Updates of the state -/

@[simp] theorem State.setReg_reg (s : State) (r : Register) : (s.setReg r).reg = r := rfl

@[simp] theorem State.setReg_pins (s : State) (r : Register) : (s.setReg r).pins = s.pins := rfl

@[simp] theorem State.setReg_upcoming (s : State) (r : Register) : (s.setReg r).upcoming = s.upcoming := rfl

@[simp] theorem State.setReg_draws (s : State) (r : Register) : (s.setReg r).draws = s.draws := rfl

@[simp] theorem State.setReg_setReg (s : State) (r q : Register) : (s.setReg r).setReg q = s.setReg q := rfl

@[simp] theorem State.setReg_self (s : State) : s.setReg s.reg = s := rfl

@[simp] theorem State.loadFrame_reg (s : State) (f : Frame) : (s.loadFrame f).reg = decodeFrame f := rfl

@[simp] theorem State.loadFrame_pins (s : State) (f : Frame) : (s.loadFrame f).pins = s.pins := rfl

@[simp] theorem State.loadFrame_upcoming (s : State) (f : Frame) : (s.loadFrame f).upcoming = s.upcoming := rfl

@[simp] theorem State.loadFrame_draws (s : State) (f : Frame) : (s.loadFrame f).draws = s.draws := rfl

@[simp] theorem State.clear_reg (s : State) : (s.clear).reg = Register.zero := rfl

@[simp] theorem State.clear_pins (s : State) : (s.clear).pins = s.pins := rfl

@[simp] theorem State.clear_upcoming (s : State) : (s.clear).upcoming = s.upcoming := rfl

@[simp] theorem State.clear_draws (s : State) : (s.clear).draws = s.draws := rfl

@[simp] theorem State.loadFraming_reg (s : State) (ok : Bool) : (s.loadFraming ok).reg = { decodeFrame s.pins.frame with fok := ok } := rfl

@[simp] theorem State.loadFraming_pins (s : State) (ok : Bool) : (s.loadFraming ok).pins = s.pins := rfl

@[simp] theorem State.loadFraming_upcoming (s : State) (ok : Bool) : (s.loadFraming ok).upcoming = s.upcoming := rfl

@[simp] theorem State.loadFraming_draws (s : State) (ok : Bool) : (s.loadFraming ok).draws = s.draws := rfl

@[simp] theorem State.loadMode_reg (s : State) (mc : Nibble) (dpf : Code3) (row : Int → TableRow) : (s.loadMode mc dpf row).reg = 
    (decodeFrame s.pins.frame).withRow mc (rawPosition dpf) (row (rawPosition dpf).toNat) := rfl

@[simp] theorem State.loadMode_pins (s : State) (mc : Nibble) (dpf : Code3) (row : Int → TableRow) : (s.loadMode mc dpf row).pins = s.pins := rfl

@[simp] theorem State.loadMode_upcoming (s : State) (mc : Nibble) (dpf : Code3) (row : Int → TableRow) : (s.loadMode mc dpf row).upcoming = s.upcoming := rfl

@[simp] theorem State.loadMode_draws (s : State) (mc : Nibble) (dpf : Code3) (row : Int → TableRow) : (s.loadMode mc dpf row).draws = s.draws := rfl

@[simp] theorem State.loadDigit_reg (s : State) (lane : Fin 5) (code : Nibble) : (s.loadDigit lane code).reg = (decodeFrame s.pins.frame).withDigit lane code := rfl

@[simp] theorem State.loadDigit_pins (s : State) (lane : Fin 5) (code : Nibble) : (s.loadDigit lane code).pins = s.pins := rfl

@[simp] theorem State.loadDigit_upcoming (s : State) (lane : Fin 5) (code : Nibble) : (s.loadDigit lane code).upcoming = s.upcoming := rfl

@[simp] theorem State.loadDigit_draws (s : State) (lane : Fin 5) (code : Nibble) : (s.loadDigit lane code).draws = s.draws := rfl

@[simp] theorem State.loadSign_reg (s : State) (negative : Bool) : (s.loadSign negative).reg = { decodeFrame s.pins.frame with sign := negative } := rfl

@[simp] theorem State.loadSign_pins (s : State) (negative : Bool) : (s.loadSign negative).pins = s.pins := rfl

@[simp] theorem State.loadSign_upcoming (s : State) (negative : Bool) : (s.loadSign negative).upcoming = s.upcoming := rfl

@[simp] theorem State.loadSign_draws (s : State) (negative : Bool) : (s.loadSign negative).draws = s.draws := rfl

@[simp] theorem State.powerCycle_reg (s : State) : s.powerCycle.reg = s.freeRegister := rfl

@[simp] theorem State.powerCycle_pins (s : State) : s.powerCycle.pins = s.pins := rfl

@[simp] theorem State.powerCycle_upcoming (s : State) : s.powerCycle.upcoming = s.upcoming := rfl

@[simp] theorem State.powerCycle_draws (s : State) : s.powerCycle.draws = s.draws + 1 := rfl

@[simp] theorem State.nextInputs_reg (s : State) : s.nextInputs.reg = s.reg := by
  unfold State.nextInputs; split <;> rfl

@[simp] theorem State.nextInputs_draws (s : State) : s.nextInputs.draws = s.draws := by
  unfold State.nextInputs; split <;> rfl

/-! ## Updates of the register -/

@[simp] theorem Register.withRow_rdy (r : Register) (mc p : Nibble) (row : TableRow) :
    (r.withRow mc p row).rdy = r.rdy := rfl

@[simp] theorem Register.withRow_fok (r : Register) (mc p : Nibble) (row : TableRow) :
    (r.withRow mc p row).fok = r.fok := rfl

@[simp] theorem Register.withRow_sign (r : Register) (mc p : Nibble) (row : TableRow) :
    (r.withRow mc p row).sign = r.sign := rfl

@[simp] theorem Register.withRow_mkn (r : Register) (mc p : Nibble) (row : TableRow) :
    (r.withRow mc p row).mkn = row.mkn := rfl

@[simp] theorem Register.withRow_mode (r : Register) (mc p : Nibble) (row : TableRow) :
    (r.withRow mc p row).mode = mc := rfl

@[simp] theorem Register.withRow_dpr (r : Register) (mc p : Nibble) (row : TableRow) :
    (r.withRow mc p row).dpr = p := rfl

@[simp] theorem Register.withRow_dp (r : Register) (mc p : Nibble) (row : TableRow) :
    (r.withRow mc p row).dp = BitVec.ofInt 4 row.dp := rfl

@[simp] theorem Register.withRow_dps (r : Register) (mc p : Nibble) (row : TableRow) :
    (r.withRow mc p row).dps = pointShown row.dp := rfl

@[simp] theorem Register.withRow_unit (r : Register) (mc p : Nibble) (row : TableRow) :
    (r.withRow mc p row).unit = unitCode row.unit := rfl

@[simp] theorem Register.withRow_pfx (r : Register) (mc p : Nibble) (row : TableRow) :
    (r.withRow mc p row).pfx = prefixCode row.pfx := rfl

@[simp] theorem Register.withRow_ukn (r : Register) (mc p : Nibble) (row : TableRow) :
    (r.withRow mc p row).ukn = unitKnown row.unit := rfl

@[simp] theorem Register.withRow_d0 (r : Register) (mc p : Nibble) (row : TableRow) :
    (r.withRow mc p row).d0 = r.d0 := rfl

@[simp] theorem Register.withRow_d1 (r : Register) (mc p : Nibble) (row : TableRow) :
    (r.withRow mc p row).d1 = r.d1 := rfl

@[simp] theorem Register.withRow_d2 (r : Register) (mc p : Nibble) (row : TableRow) :
    (r.withRow mc p row).d2 = r.d2 := rfl

@[simp] theorem Register.withRow_d3 (r : Register) (mc p : Nibble) (row : TableRow) :
    (r.withRow mc p row).d3 = r.d3 := rfl

@[simp] theorem Register.withRow_d4 (r : Register) (mc p : Nibble) (row : TableRow) :
    (r.withRow mc p row).d4 = r.d4 := rfl

@[simp] theorem Register.withDigit_rdy (r : Register) (lane : Fin 5) (code : Nibble) :
    (r.withDigit lane code).rdy = r.rdy := by
  unfold Register.withDigit; split <;> rfl

@[simp] theorem Register.withDigit_fok (r : Register) (lane : Fin 5) (code : Nibble) :
    (r.withDigit lane code).fok = r.fok := by
  unfold Register.withDigit; split <;> rfl

@[simp] theorem Register.withDigit_sign (r : Register) (lane : Fin 5) (code : Nibble) :
    (r.withDigit lane code).sign = r.sign := by
  unfold Register.withDigit; split <;> rfl

@[simp] theorem Register.withDigit_mkn (r : Register) (lane : Fin 5) (code : Nibble) :
    (r.withDigit lane code).mkn = r.mkn := by
  unfold Register.withDigit; split <;> rfl

@[simp] theorem Register.withDigit_mode (r : Register) (lane : Fin 5) (code : Nibble) :
    (r.withDigit lane code).mode = r.mode := by
  unfold Register.withDigit; split <;> rfl

@[simp] theorem Register.withDigit_dpr (r : Register) (lane : Fin 5) (code : Nibble) :
    (r.withDigit lane code).dpr = r.dpr := by
  unfold Register.withDigit; split <;> rfl

@[simp] theorem Register.withDigit_dp (r : Register) (lane : Fin 5) (code : Nibble) :
    (r.withDigit lane code).dp = r.dp := by
  unfold Register.withDigit; split <;> rfl

@[simp] theorem Register.withDigit_dps (r : Register) (lane : Fin 5) (code : Nibble) :
    (r.withDigit lane code).dps = r.dps := by
  unfold Register.withDigit; split <;> rfl

@[simp] theorem Register.withDigit_unit (r : Register) (lane : Fin 5) (code : Nibble) :
    (r.withDigit lane code).unit = r.unit := by
  unfold Register.withDigit; split <;> rfl

@[simp] theorem Register.withDigit_pfx (r : Register) (lane : Fin 5) (code : Nibble) :
    (r.withDigit lane code).pfx = r.pfx := by
  unfold Register.withDigit; split <;> rfl

@[simp] theorem Register.withDigit_ukn (r : Register) (lane : Fin 5) (code : Nibble) :
    (r.withDigit lane code).ukn = r.ukn := by
  unfold Register.withDigit; split <;> rfl

/-- The lane that is set holds the code. -/
@[simp] theorem Register.withDigit_digit (r : Register) (lane : Fin 5) (code : Nibble) :
    (r.withDigit lane code).digit lane = code := by
  fin_cases lane <;> rfl

/-- Every other lane is unchanged. -/
theorem Register.withDigit_digit_other (r : Register) {lane other : Fin 5} (code : Nibble) (h : other ≠ lane) :
    (r.withDigit lane code).digit other = r.digit other := by
  fin_cases lane <;> fin_cases other <;> first | rfl | exact absurd rfl h

/-! ## The loaded register -/

@[simp] theorem decodeFrame_rdy (f : Frame) : (decodeFrame f).rdy = true := rfl

@[simp] theorem decodeFrame_fok (f : Frame) : (decodeFrame f).fok = frameOk f := rfl

@[simp] theorem decodeFrame_sign (f : Frame) : (decodeFrame f).sign = signBit f := rfl

@[simp] theorem decodeFrame_mkn (f : Frame) : (decodeFrame f).mkn = (modeTable (modeCode f) (dpr f).toNat).mkn := rfl

@[simp] theorem decodeFrame_mode (f : Frame) : (decodeFrame f).mode = modeCode f := rfl

@[simp] theorem decodeFrame_dpr (f : Frame) : (decodeFrame f).dpr = dpr f := rfl

@[simp] theorem decodeFrame_dp (f : Frame) : (decodeFrame f).dp = BitVec.ofInt 4 (modeTable (modeCode f) (dpr f).toNat).dp := rfl

@[simp] theorem decodeFrame_dps (f : Frame) : (decodeFrame f).dps = pointShown (modeTable (modeCode f) (dpr f).toNat).dp := rfl

@[simp] theorem decodeFrame_unit (f : Frame) : (decodeFrame f).unit = unitCode (modeTable (modeCode f) (dpr f).toNat).unit := rfl

@[simp] theorem decodeFrame_pfx (f : Frame) : (decodeFrame f).pfx = prefixCode (modeTable (modeCode f) (dpr f).toNat).pfx := rfl

@[simp] theorem decodeFrame_ukn (f : Frame) : (decodeFrame f).ukn = unitKnown (modeTable (modeCode f) (dpr f).toNat).unit := rfl

@[simp] theorem decodeFrame_d0 (f : Frame) : (decodeFrame f).d0 = laneCode f 0 := rfl

@[simp] theorem decodeFrame_d1 (f : Frame) : (decodeFrame f).d1 = laneCode f 1 := rfl

@[simp] theorem decodeFrame_d2 (f : Frame) : (decodeFrame f).d2 = laneCode f 2 := rfl

@[simp] theorem decodeFrame_d3 (f : Frame) : (decodeFrame f).d3 = laneCode f 3 := rfl

@[simp] theorem decodeFrame_d4 (f : Frame) : (decodeFrame f).d4 = laneCode f 4 := rfl

/-- Every lane of a loaded register holds the code of its own byte. -/
@[simp] theorem decodeFrame_digit (f : Frame) (lane : Fin 5) : (decodeFrame f).digit lane = laneCode f lane := by
  fin_cases lane <;> rfl

@[simp] theorem Register.zero_digit (lane : Fin 5) : Register.zero.digit lane = 0 := by
  fin_cases lane <;> rfl

/-- Two registers are equal where all their parts are. -/
theorem Register.ext_fields {r q : Register} (h1 : r.rdy = q.rdy) (h2 : r.fok = q.fok) (h3 : r.sign = q.sign)
    (h4 : r.mkn = q.mkn) (h5 : r.mode = q.mode) (h6 : r.dpr = q.dpr) (h7 : r.dp = q.dp) (h8 : r.dps = q.dps)
    (h9 : r.unit = q.unit) (h10 : r.pfx = q.pfx) (h11 : r.ukn = q.ukn) (hd : ∀ lane, r.digit lane = q.digit lane) :
    r = q := by
  have e0 : r.d0 = q.d0 := hd 0
  have e1 : r.d1 = q.d1 := hd 1
  have e2 : r.d2 = q.d2 := hd 2
  have e3 : r.d3 = q.d3 := hd 3
  have e4 : r.d4 = q.d4 := hd 4
  cases r; cases q; simp_all

end Sys2Proof.Machine
end

