-- ==== Sys2Proof/Laws/Ops.lean ====
section
/-! SUPPORT. What each shared operation can do, said once. -/

namespace Sys2Proof.Machine

/-! ## The extractors -/

/-- Eliminates a field read: all extractors of a frame are slices of it. -/
theorem frameByte_eq (f : Frame) (i : Nat) : frameByte f i = f.extractLsb' (8 * i) 8 := rfl

/-- The raw position as a number (41_field_extract.md R110). -/
theorem rawPosition_toNat (dpf : Code3) : (rawPosition dpf).toNat = dpf.toNat + 1 := by
  revert dpf; decide

/-- `DCODE` by classes, on numbers (41_field_extract.md R117 to R119). -/
theorem dcode_toNat (b : Byte) :
    (dcode b).toNat =
      if 0x30 ≤ b.toNat ∧ b.toNat ≤ 0x39 then b.toNat - 0x30 else if b.toNat = 0x3E then 0xA else 0xB := by
  revert b; decide

/-- A digit code is never a reserved one (30_encoding.md R81). -/
theorem dcode_le (b : Byte) : (dcode b).toNat ≤ 11 := by
  rw [dcode_toNat]; split <;> (try split) <;> omega

/-! ## The end of an edge -/

/-- Stable inputs leave the operation's result as it is. -/
theorem settleEdge_of_stable {c : Inputs} (t : State) (h : c.stable = true) : settleEdge c t = t := by
  simp only [Inputs.stable, Bool.and_eq_true, Bool.not_eq_true', beq_iff_eq] at h
  simp [settleEdge, h.1.1, h.1.2, h.2]

/-- A changing `rst` or `load` frees the register and counts one draw. -/
theorem settleEdge_of_control {c : Inputs} (t : State) (h : c.rstMoves = true ∨ c.loadMoves = true) :
    settleEdge c t = { t with reg := t.freeRegister, draws := t.draws + 1 } := by
  have h' : (c.rstMoves || c.loadMoves) = true := by simpa using h
  simp [settleEdge, h']

/-- Stable control inputs that select no LOAD leave the result as it is, whatever the frame does. -/
theorem settleEdge_of_no_load {c : Inputs} (t : State) (hr : c.rstMoves = false) (hl : c.loadMoves = false)
    (h : c.rst = true ∨ c.load = false) : settleEdge c t = t := by
  rcases h with h | h <;> simp [settleEdge, hr, hl, h]

/-- Everything the end of an edge can do to the result of an operation. -/
theorem settleEdge_cases (c : Inputs) (t : State) :
    settleEdge c t = t ∨
      settleEdge c t = { t with reg := t.freeRegister, draws := t.draws + 1 } ∨
      settleEdge c t = { t with reg := t.reg.spoil t.freeRegister c.frameMoves, draws := t.draws + 1 } := by
  unfold settleEdge
  split
  · exact .inr (.inl rfl)
  · split
    · exact .inr (.inr rfl)
    · exact .inl rfl

@[simp] theorem settleEdge_pins (c : Inputs) (t : State) : (settleEdge c t).pins = t.pins := by
  rcases settleEdge_cases c t with h | h | h <;> rw [h]

@[simp] theorem settleEdge_upcoming (c : Inputs) (t : State) : (settleEdge c t).upcoming = t.upcoming := by
  rcases settleEdge_cases c t with h | h | h <;> rw [h]

/-! ## The step -/

/-- An operation that answers a next state makes the step answer one. -/
theorem step_of_next {s u : State} (h : exec s.pins.operation s = .next u) :
    step s = .next (settleEdge s.pins u).nextInputs := by
  simp only [step, h]

/-- With stable inputs the step is the operation, and then the next inputs. -/
theorem step_of_stable {s u : State} (hs : s.pins.stable = true) (h : exec s.pins.operation s = .next u) :
    step s = .next u.nextInputs := by
  rw [step_of_next h, settleEdge_of_stable u hs]

/-- Everything a step that answers a next state has done. -/
theorem step_cases {s t : State} (h : step s = .next t) :
    ∃ u, exec s.pins.operation s = .next u ∧ t = (settleEdge s.pins u).nextInputs := by
  unfold step at h
  split at h
  · next u hu => exact ⟨u, hu, by simpa using h.symm⟩
  · cases h
  · cases h

end Sys2Proof.Machine
end

