-- ==== Sys2Proof/Laws/HostView.lean ====
section
/-! SUPPORT. What the host's observations can do, said once (30_encoding.md R84). -/

namespace Sys2Proof.Machine

theorem symbolOfCode_eq_none (d : Nibble) : symbolOfCode d = none ↔ 12 ≤ d.toNat := by
  revert d; decide

theorem unitOfCode_eq_none (u : Code3) : unitOfCode u = none ↔ 7 ≤ u.toNat := by
  revert u; decide

theorem prefixOfCode_eq_none (p : Code3) : prefixOfCode p = none ↔ 6 ≤ p.toNat := by
  revert p; decide

/-- A register without a reserved code has a symbol for each digit, a unit and a prefix. -/
theorem codes_isSome {r : Register} (h : r.hasReservedCode = false) :
    (symbolOfCode r.d0).isSome ∧ (symbolOfCode r.d1).isSome ∧ (symbolOfCode r.d2).isSome ∧
      (symbolOfCode r.d3).isSome ∧ (symbolOfCode r.d4).isSome ∧ (unitOfCode r.unit).isSome ∧
      (prefixOfCode r.pfx).isSome := by
  simp only [Register.hasReservedCode, Bool.or_eq_false_iff, decide_eq_false_iff_not, ← symbolOfCode_eq_none,
    ← unitOfCode_eq_none, ← prefixOfCode_eq_none] at h
  simpa [Option.isSome_iff_ne_none, and_assoc] using h

/-- Everything `observe` can do: refuse a reserved code, or give a reading. -/
theorem observe_cases (r : Register) :
    (r.hasReservedCode = true ∧ r.observe = .refused .reservedCode) ∨
      (r.hasReservedCode = false ∧ ∃ d, r.observe = .next d) := by
  cases h : r.hasReservedCode
  · obtain ⟨h0, h1, h2, h3, h4, hu, hp⟩ := codes_isSome h
    simp only [Option.isSome_iff_exists] at h0 h1 h2 h3 h4 hu hp
    obtain ⟨_, h0⟩ := h0
    obtain ⟨_, h1⟩ := h1
    obtain ⟨_, h2⟩ := h2
    obtain ⟨_, h3⟩ := h3
    obtain ⟨_, h4⟩ := h4
    obtain ⟨_, hu⟩ := hu
    obtain ⟨_, hp⟩ := hp
    exact .inr ⟨rfl, _, by simp only [Register.observe, h0, h1, h2, h3, h4, hu, hp]; rfl⟩
  · refine .inl ⟨rfl, ?_⟩
    unfold Register.observe
    split
    · next h0 h1 h2 h3 h4 hu hp =>
      simp [Register.hasReservedCode, ← symbolOfCode_eq_none, ← unitOfCode_eq_none, ← prefixOfCode_eq_none, h0, h1, h2,
        h3, h4, hu, hp] at h
    · rfl

/-- Where a reading can be observed, an observation answers. -/
@[simp] theorem whenObservable_of_legal {α : Type} {r : Register} (v : α) (h : r.hasReservedCode = false) :
    r.whenObservable v = .next v := by
  rcases observe_cases r with ⟨h', _⟩ | ⟨_, d, hd⟩
  · simp [h] at h'
  · simp only [Register.whenObservable, hd]

/-- A reserved code refuses every observation. -/
@[simp] theorem whenObservable_of_reserved {α : Type} {r : Register} (v : α) (h : r.hasReservedCode = true) :
    r.whenObservable v = .refused .reservedCode := by
  rcases observe_cases r with ⟨_, hd⟩ | ⟨h', _⟩
  · simp only [Register.whenObservable, hd]
  · simp [h] at h'

/-- Everything an observation can do: answer, or refuse. -/
theorem whenObservable_cases {α : Type} (r : Register) (v : α) :
    r.whenObservable v = .next v ∨ r.whenObservable v = .refused .reservedCode := by
  cases h : r.hasReservedCode
  · exact .inl (whenObservable_of_legal v h)
  · exact .inr (whenObservable_of_reserved v h)

/-- A LOAD writes no reserved code (30_encoding.md R84). -/
@[simp] theorem decodeFrame_hasReservedCode (f : Frame) : (decodeFrame f).hasReservedCode = false := by
  have digit : ∀ lane, ¬12 ≤ (laneCode f lane).toNat := fun lane => by
    have := dcode_le (digitByte f lane)
    simp only [laneCode]
    omega
  have unit : ∀ u : MeterUnit, ¬7 ≤ (unitCode u).toNat := by intro u; cases u <;> decide
  have pfx : ∀ p : MeterPrefix, ¬6 ≤ (prefixCode p).toNat := by intro p; cases p <;> decide
  simp only [Register.hasReservedCode, decodeFrame, digit, unit, pfx, decide_false, Bool.or_self]

end Sys2Proof.Machine
end

