-- ==== Sys2Proof/Laws/PerInstr.lean ====
section
/-! SUPPORT. Facts about every instruction as syntax, one lemma per constructor. -/

namespace Sys2Proof.Laws

/-- An encoded instruction has its format's number of bytes. -/
def EncodeFits.Statement (i : Instr) : Prop := (encode i).length = i.format.length

theorem EncodeFits.hold : EncodeFits.Statement (.hold) := rfl

theorem EncodeFits.load (f : Frame) : EncodeFits.Statement (.load f) := rfl

theorem EncodeFits.reset : EncodeFits.Statement (.reset) := rfl

theorem EncodeFits.resetLoad (f : Frame) : EncodeFits.Statement (.resetLoad f) := rfl

theorem EncodeFits.frameValid : EncodeFits.Statement (.frameValid) := rfl

theorem EncodeFits.frameInvalid (cmd lf : Byte) : EncodeFits.Statement (.frameInvalid cmd lf) := rfl

theorem EncodeFits.mode0Unknown (dpf : Code3) : EncodeFits.Statement (.mode0Unknown dpf) := rfl

theorem EncodeFits.mode1Unknown (dpf : Code3) : EncodeFits.Statement (.mode1Unknown dpf) := rfl

theorem EncodeFits.mode2Unknown (dpf : Code3) : EncodeFits.Statement (.mode2Unknown dpf) := rfl

theorem EncodeFits.mode3Unknown (dpf : Code3) : EncodeFits.Statement (.mode3Unknown dpf) := rfl

theorem EncodeFits.mode4Gen (dpf : Code3) : EncodeFits.Statement (.mode4Gen dpf) := rfl

theorem EncodeFits.mode5Amp (dpf : Code3) : EncodeFits.Statement (.mode5Amp dpf) := rfl

theorem EncodeFits.mode6Mamp (dpf : Code3) : EncodeFits.Statement (.mode6Mamp dpf) := rfl

theorem EncodeFits.mode7Unknown (dpf : Code3) : EncodeFits.Statement (.mode7Unknown dpf) := rfl

theorem EncodeFits.mode8Temp (dpf : Code3) : EncodeFits.Statement (.mode8Temp dpf) := rfl

theorem EncodeFits.mode9Cap (dpf : Code3) : EncodeFits.Statement (.mode9Cap dpf) := rfl

theorem EncodeFits.modeAFreq (dpf : Code3) : EncodeFits.Statement (.modeAFreq dpf) := rfl

theorem EncodeFits.modeBDiode (dpf : Code3) : EncodeFits.Statement (.modeBDiode dpf) := rfl

theorem EncodeFits.modeCRes (dpf : Code3) : EncodeFits.Statement (.modeCRes dpf) := rfl

theorem EncodeFits.modeDMv (dpf : Code3) : EncodeFits.Statement (.modeDMv dpf) := rfl

theorem EncodeFits.modeEDcv (dpf : Code3) : EncodeFits.Statement (.modeEDcv dpf) := rfl

theorem EncodeFits.modeFAcv (dpf : Code3) : EncodeFits.Statement (.modeFAcv dpf) := rfl

theorem EncodeFits.digit0 (lane : Fin 5) : EncodeFits.Statement (.digit0 lane) := rfl

theorem EncodeFits.digit1 (lane : Fin 5) : EncodeFits.Statement (.digit1 lane) := rfl

theorem EncodeFits.digit2 (lane : Fin 5) : EncodeFits.Statement (.digit2 lane) := rfl

theorem EncodeFits.digit3 (lane : Fin 5) : EncodeFits.Statement (.digit3 lane) := rfl

theorem EncodeFits.digit4 (lane : Fin 5) : EncodeFits.Statement (.digit4 lane) := rfl

theorem EncodeFits.digit5 (lane : Fin 5) : EncodeFits.Statement (.digit5 lane) := rfl

theorem EncodeFits.digit6 (lane : Fin 5) : EncodeFits.Statement (.digit6 lane) := rfl

theorem EncodeFits.digit7 (lane : Fin 5) : EncodeFits.Statement (.digit7 lane) := rfl

theorem EncodeFits.digit8 (lane : Fin 5) : EncodeFits.Statement (.digit8 lane) := rfl

theorem EncodeFits.digit9 (lane : Fin 5) : EncodeFits.Statement (.digit9 lane) := rfl

theorem EncodeFits.overflow (lane : Fin 5) : EncodeFits.Statement (.overflow lane) := rfl

theorem EncodeFits.blank (lane : Fin 5) (b : Byte) : EncodeFits.Statement (.blank lane b) := rfl

theorem EncodeFits.signPos : EncodeFits.Statement (.signPos) := rfl

theorem EncodeFits.signNeg : EncodeFits.Statement (.signNeg) := rfl

end Sys2Proof.Laws
end

