-- ==== Sys2Proof/Tests/Slice0.lean ====
section
/-! SUPPORT. Tests and witnesses. Expected words and strings are those of 95_test_vectors.md or of a rule's own
example, named at each test; the encodings are written out from 30_encoding.md. -/

namespace Sys2Proof.Tests

open Sys2Proof Sys2Proof.Machine Sys2Proof.Claims

/-! ## Helpers -/

/-- The reading word after an outcome. -/
def wordOf (o : Host.Outcome State Fault Refusal) : Option ReadingWord :=
  match o with
  | .next t => some t.reading
  | .fault _ => none
  | .refused _ => none

/-- The value of an outcome. -/
def valueOf {α : Type} (o : Host.Outcome α Fault Refusal) : Option α :=
  match o with
  | .next t => some t
  | .fault _ => none
  | .refused _ => none

/-- The vectors' base frame W1 with `F[1]`, `F[2]`, `F[4]` given. -/
def meter (f1 f2 f4 : Byte) : Frame := frameOf 0x89 f1 f2 0x00 f4 0x30 0x31 0x32 0x33 0x34 0x00 0x0A

/-- The base frame W1 with its five digit bytes given. -/
def digits (b5 b6 b7 b8 b9 : Byte) : Frame := frameOf 0x89 0x70 0x08 0x00 0x00 b5 b6 b7 b8 b9 0x00 0x0A

/-- The base frame W1 with its markers given. -/
def marked (cmd lf : Byte) : Frame := frameOf cmd 0x70 0x08 0x00 0x00 0x30 0x31 0x32 0x33 0x34 0x00 lf

/-- The frame of W1. -/
def w1 : Frame := 0x0A0034333231300000087089#96

/-- The state with stable levels at the ports. -/
def ports (rst load : Bool) (f : Frame) : State := { State.reset with pins := Inputs.steady rst load f }

/-- The word after one LOAD edge of the frame, from the reset state. -/
def loadWord (f : Frame) : Option ReadingWord := wordOf (step (ports false true f))

/-- The word after an instruction, with a frame at the port. -/
def runWord (i : Instr) (f : Frame) : Option ReadingWord := wordOf (exec i (ports false true f))

/-- The state S1 of V-CTL: after a LOAD of W1. -/
def s1 (rst load : Bool) (f : Frame) : State := { ports rst load f with reg := decodeFrame w1 }

/-- A register with reserved codes and every flag set: an `X` of V-CTL. -/
def junk : Register := Register.ofBits 0xFFFFFFFFFFF#44

/-- A state whose inputs move as given, `rst`, `load` at the levels given. -/
def moving (rst load rstMoves loadMoves : Bool) (moves : Frame) : State :=
  { State.reset with pins := ⟨rst, load, w1, rstMoves, loadMoves, moves⟩ }

/-- The example host of 44_host_render.md R209: prefixes m, u, n, k, M; mode names stand as `c` and the code's digit. -/
def exampleHost : Config.HostParams where
  modeName := fun c => ['c', Char.ofNat (0x30 + c.toNat)]
  prefixSymbol := fun p =>
    match p.toNat with
    | 1 => ['m']
    | 2 => ['u']
    | 3 => ['n']
    | 4 => ['k']
    | _ => ['M']
  charset := fun c => [BitVec.ofNat 8 c.toNat]
  hexFormat := fun bs => bs.map fun b => Char.ofNat b.toNat

/-- The rendering of a loaded frame. -/
def rendered (f : Frame) (showMode showUnit : Bool) : Option Rendered :=
  valueOf ((decodeFrame f).render exampleHost ⟨showMode, showUnit⟩)

/-! ## Well-formedness smoke: each check refuses its ill-formed terms -/

theorem test_frame_invalid_refuses_the_valid_markers : WellFormed (.frameInvalid 0x89 0x0A) = false := by decide

theorem test_frame_invalid_takes_any_other_markers :
    WellFormed (.frameInvalid 0x89 0x0D) = true ∧ WellFormed (.frameInvalid 0x0A 0x89) = true := by decide

theorem test_blank_refuses_digit_and_overflow_bytes :
    WellFormed (.blank 0 0x30) = false ∧ WellFormed (.blank 0 0x39) = false ∧ WellFormed (.blank 0 0x3E) = false := by
  decide

theorem test_blank_takes_the_neighbours :
    WellFormed (.blank 0 0x2F) = true ∧ WellFormed (.blank 0 0x3A) = true ∧ WellFormed (.blank 0 0x3D) = true ∧
      WellFormed (.blank 0 0x3F) = true := by decide

theorem test_stimulus_needs_at_least_one_hold :
    (StimulusLine.holdFor 0).wellFormed = false ∧ (StimulusLine.one .signNeg).wellFormed = false ∧
      (StimulusLine.holdFor 1).wellFormed = true ∧ (StimulusLine.one .reset).wellFormed = true := by decide

/-! ## Decoding: every constructor's word, from the encoding tables -/

/-- 30_encoding.md R75: `CTRL = (rst, load)`, then `F[0]` to `F[11]`. -/
theorem test_decode_control :
    decode .ctrl [0b00, 0, 0, 0, 0, 0, 0, 0, 0, 0, 0, 0, 0] = .ok .hold ∧
    decode .ctrl [0b01, 0x89, 0x70, 0x08, 0, 0, 0x30, 0x31, 0x32, 0x33, 0x34, 0, 0x0A] = .ok (.load w1) ∧
    decode .ctrl [0b10, 1, 2, 3, 4, 5, 6, 7, 8, 9, 10, 11, 12] = .ok .reset ∧
    decode .ctrl [0b11, 0x89, 0x70, 0x08, 0, 0, 0x30, 0x31, 0x32, 0x33, 0x34, 0, 0x0A] = .ok (.resetLoad w1) :=
  ⟨rfl, rfl, rfl, rfl⟩

/-- What is no control layout is refused by name (30_encoding.md R74, R75). -/
theorem test_decode_control_refuses :
    decode .ctrl [0b100, 0, 0, 0, 0, 0, 0, 0, 0, 0, 0, 0, 0] = .error (.controlTooWide 4) ∧
    decode .ctrl [0b01, 0, 0, 0, 0, 0, 0, 0, 0, 0, 0, 0] = .error (.wrongLength 13 12) ∧
    decode .ctrl [] = .error (.wrongLength 13 0) ∧ decode (.selector .sign) [] = .error (.wrongLength 1 0) :=
  ⟨rfl, rfl, rfl, rfl⟩

/-- 30_encoding.md R79; 40_validate.md R100's corner cases. -/
theorem test_decode_framing :
    decode (.selector .framing) [0x89, 0x0A] = .ok .frameValid ∧
    decode (.selector .framing) [0x88, 0x0A] = .ok (.frameInvalid 0x88 0x0A) ∧
    decode (.selector .framing) [0x0A, 0x89] = .ok (.frameInvalid 0x0A 0x89) := ⟨rfl, rfl, rfl⟩

/-- 30_encoding.md R77, `F[1] = code << 3`; the bits around the field are ignored (41_field_extract.md R112). -/
theorem test_decode_modes_unknown :
    decode (.selector .modeSel) [0b0_0000_000, 0b00_001_000] = .ok (.mode0Unknown 1) ∧
    decode (.selector .modeSel) [0b0_0001_000, 0b00_010_000] = .ok (.mode1Unknown 2) ∧
    decode (.selector .modeSel) [0b0_0010_111, 0b11_011_111] = .ok (.mode2Unknown 3) ∧
    decode (.selector .modeSel) [0b1_0011_000, 0b00_111_000] = .ok (.mode3Unknown 7) ∧
    decode (.selector .modeSel) [0b0_0111_000, 0b00_000_000] = .ok (.mode7Unknown 0) := ⟨rfl, rfl, rfl, rfl, rfl⟩

theorem test_decode_modes_named :
    decode (.selector .modeSel) [0b0_0100_000, 0b00_001_000] = .ok (.mode4Gen 1) ∧
    decode (.selector .modeSel) [0b0_0101_000, 0b00_001_000] = .ok (.mode5Amp 1) ∧
    decode (.selector .modeSel) [0b0_0110_000, 0b00_111_000] = .ok (.mode6Mamp 7) ∧
    decode (.selector .modeSel) [0b0_1000_000, 0b00_100_000] = .ok (.mode8Temp 4) ∧
    decode (.selector .modeSel) [0b0_1001_000, 0b00_011_000] = .ok (.mode9Cap 3) ∧
    decode (.selector .modeSel) [0b0_1010_000, 0b00_001_000] = .ok (.modeAFreq 1) ∧
    decode (.selector .modeSel) [0b0_1011_000, 0b00_001_000] = .ok (.modeBDiode 1) ∧
    decode (.selector .modeSel) [0b0_1100_000, 0b00_101_000] = .ok (.modeCRes 5) ∧
    decode (.selector .modeSel) [0b0_1101_000, 0b00_001_000] = .ok (.modeDMv 1) ∧
    decode (.selector .modeSel) [0b0_1110_000, 0b00_001_000] = .ok (.modeEDcv 1) ∧
    decode (.selector .modeSel) [0b1_1111_111, 0b11_111_111] = .ok (.modeFAcv 7) :=
  ⟨rfl, rfl, rfl, rfl, rfl, rfl, rfl, rfl, rfl, rfl, rfl⟩

/-- 30_encoding.md R78. -/
theorem test_decode_digits :
    decode (.selector (.digitLane 0)) [0x30] = .ok (.digit0 0) ∧
    decode (.selector (.digitLane 1)) [0x31] = .ok (.digit1 1) ∧
    decode (.selector (.digitLane 2)) [0x32] = .ok (.digit2 2) ∧
    decode (.selector (.digitLane 3)) [0x33] = .ok (.digit3 3) ∧
    decode (.selector (.digitLane 4)) [0x34] = .ok (.digit4 4) ∧
    decode (.selector (.digitLane 0)) [0x35] = .ok (.digit5 0) ∧
    decode (.selector (.digitLane 1)) [0x36] = .ok (.digit6 1) ∧
    decode (.selector (.digitLane 2)) [0x37] = .ok (.digit7 2) ∧
    decode (.selector (.digitLane 3)) [0x38] = .ok (.digit8 3) ∧
    decode (.selector (.digitLane 4)) [0x39] = .ok (.digit9 4) ∧
    decode (.selector (.digitLane 2)) [0x3E] = .ok (.overflow 2) ∧
    decode (.selector (.digitLane 4)) [0xB0] = .ok (.blank 4 0xB0) ∧
    decode (.selector (.digitLane 0)) [0x4C] = .ok (.blank 0 0x4C) :=
  ⟨rfl, rfl, rfl, rfl, rfl, rfl, rfl, rfl, rfl, rfl, rfl, rfl, rfl⟩

/-- 41_field_extract.md R115: bit 4 alone. -/
theorem test_decode_sign :
    decode (.selector .sign) [0x00] = .ok .signPos ∧ decode (.selector .sign) [0xEF] = .ok .signPos ∧
      decode (.selector .sign) [0x10] = .ok .signNeg ∧ decode (.selector .sign) [0xFF] = .ok .signNeg :=
  ⟨rfl, rfl, rfl, rfl⟩

/-- 30_encoding.md R71: where each part stands on the port. -/
theorem test_select_reads_the_port :
    select .framing w1 = .frameValid ∧ select .modeSel w1 = .modeEDcv 1 ∧ select .sign w1 = .signPos ∧
      select (.digitLane 0) w1 = .digit0 0 ∧ select (.digitLane 1) w1 = .digit1 1 ∧
      select (.digitLane 2) w1 = .digit2 2 ∧ select (.digitLane 3) w1 = .digit3 3 ∧
      select (.digitLane 4) w1 = .digit4 4 := by decide

/-- 95_test_vectors.md P1: the 96-bit value of the frame. -/
theorem test_frame_of_bytes :
    frameOfBytes [0x89, 0x70, 0x08, 0, 0, 0x30, 0x31, 0x32, 0x33, 0x34, 0, 0x0A] = some w1 ∧ meter 0x70 0x08 0 = w1 ∧
      bytesOfFrame w1 = [0x89, 0x70, 0x08, 0, 0, 0x30, 0x31, 0x32, 0x33, 0x34, 0, 0x0A] := by decide

/-- Table words (log 5): one of each format, and the two-byte and whole-frame forms. -/
theorem test_decode_table_words :
    decodeTableWord 8 0x02 = some .reset ∧ decodeTableWord 8 0x28 = some (.mode5Amp 0) ∧
      decodeTableWord 8 0x37 = some (.digit7 0) ∧ decodeTableWord 8 0x10 = some .signNeg ∧
      decodeTableWord 16 0x0870 = some (.modeEDcv 1) ∧ decodeTableWord 96 0x0A0034333231300000087089 = some .frameValid ∧
      decodeTableWord 96 0x88 = some (.frameInvalid 0x88 0x00) ∧ decodeTableWord 8 0x04 = some (.blank 0 0x04) := by
  decide

/-- 30_encoding.md R85: `HOLD n` is `n` HOLD edges; an operation is one. -/
theorem test_stimulus_expands :
    stimulusEdges [.one .reset, .one (.load w1), .holdFor 2] =
      [Inputs.steady true false 0, Inputs.steady false true w1, Inputs.steady false false 0,
        Inputs.steady false false 0] := by decide

/-! ## Control (95_test_vectors.md V-CTL) -/

/-- V-CTL-2, V-CTL-3, V-CTL-8. -/
theorem test_hold :
    wordOf (step (s1 false false 0)) = some 0x0432108B12EB#48 ∧
      wordOf (step (s1 false false (meter 0x60 0x20 0))) = some 0x0432108B12EB#48 ∧
      wordOf (step (ports false false w1)) = some 0#48 := by decide

/-- V-CTL-1, V-CTL-9, V-CTL-10. -/
theorem test_load :
    wordOf (step (ports false true w1)) = some 0x0432108B12EB#48 ∧
      wordOf (step (s1 false true (marked 0x89 0x0D))) = some 0x0432108B12E9#48 ∧
      wordOf (step (s1 false true (meter 0x60 0x20 0))) = some 0x043210DD05CB#48 := by decide

/-- V-CTL-12: from any register. -/
theorem test_load_leaves_junk :
    wordOf (step { ports false true w1 with reg := junk }) = some 0x0432108B12EB#48 := by decide

/-- V-CTL-4, V-CTL-6. -/
theorem test_reset :
    wordOf (step (s1 true false w1)) = some 0#48 ∧
      wordOf (step { ports true false 0 with reg := junk }) = some 0#48 := by decide

/-- V-CTL-5: RESET wins. -/
theorem test_reset_load : wordOf (step (s1 true true (meter 0x60 0x20 0))) = some 0#48 := by decide

/-- A reserved code is kept by HOLD and no observation of it is given (30_encoding.md R84). -/
theorem test_hold_keeps_reserved_codes :
    wordOf (exec .hold { State.reset with reg := junk }) = some 0x0FFFFFFFFFFF#48 ∧ valueOf junk.observe = none := by
  decide

/-- The host drives the next edge after this one: P2's edges 1 and 2 (log 1). -/
theorem test_next_inputs :
    (valueOf (step (State.reset.drivenBy [Inputs.steady true false 0, Inputs.steady false true w1]))).map State.pins =
      some (Inputs.steady false true w1) := by decide

/-! ## Framing (V-VAL, W7) -/

/-- V-VAL-1 to V-VAL-3. -/
theorem test_frame_valid :
    loadWord (marked 0x89 0x0A) = some 0x0432108B12EB#48 ∧ loadWord 0x0A0000000000000000000089#96 = some 0x0BBBBB011103#48 ∧
      loadWord 0x0AFFFFFFFFFFFFFFFFFFFF89#96 = some 0x0BBBBB8A78FF#48 := by decide

theorem test_frame_valid_row : runWord .frameValid (marked 0x00 0x00) = some 0x0432108B12EB#48 := by decide

/-- V-VAL-4 to V-VAL-8 and W7. -/
theorem test_frame_invalid :
    loadWord (marked 0x09 0x0A) = some 0x0432108B12E9#48 ∧ loadWord (marked 0x89 0x0B) = some 0x0432108B12E9#48 ∧
      loadWord (marked 0x89 0x1A) = some 0x0432108B12E9#48 ∧ loadWord (marked 0xFF 0xFF) = some 0x0432108B12E9#48 ∧
      loadWord (marked 0x0A 0x89) = some 0x0432108B12E9#48 := by decide

theorem test_frame_invalid_row : runWord (.frameInvalid 0x89 0x0D) w1 = some 0x0432108B12E9#48 := by decide

/-! ## Modes (V-MT, V-MC, V-DPR, W2 to W4): the LOAD of the frame, and the row alone over a frame of another mode -/

/-- V-MT-1, V-MC-6. -/
theorem test_mode_0 :
    loadWord (meter 0x00 0x08 0) = some 0x043210012203#48 ∧ loadWord (meter 0x07 0x08 0) = some 0x043210012203#48 ∧
      runWord (.mode0Unknown 1) w1 = some 0x043210012203#48 := by decide

/-- V-MT-2. -/
theorem test_mode_1 :
    loadWord (meter 0x08 0x08 0) = some 0x043210012213#48 ∧ runWord (.mode1Unknown 1) w1 = some 0x043210012213#48 := by
  decide

/-- V-MT-3. -/
theorem test_mode_2 :
    loadWord (meter 0x10 0x08 0) = some 0x043210012223#48 ∧ runWord (.mode2Unknown 1) w1 = some 0x043210012223#48 := by
  decide

/-- V-MT-4. -/
theorem test_mode_3 :
    loadWord (meter 0x18 0x08 0) = some 0x043210012233#48 ∧ runWord (.mode3Unknown 1) w1 = some 0x043210012233#48 := by
  decide

/-- V-MT-5, V-MT-36. -/
theorem test_mode_4_gen :
    loadWord (meter 0x20 0x08 0) = some 0x04321001224B#48 ∧ loadWord (meter 0x20 0x38 0) = some 0x04321000884B#48 ∧
      runWord (.mode4Gen 7) w1 = some 0x04321000884B#48 := by decide

/-- V-MT-6, V-MT-17, V-MT-18. -/
theorem test_mode_5_amp :
    loadWord (meter 0x28 0x08 0) = some 0x04321083125B#48 ∧ loadWord (meter 0x28 0x00 0) = some 0x04321083015B#48 ∧
      runWord (.mode5Amp 4) w1 = some 0x04321082455B#48 := by decide

/-- V-MT-7, V-MT-37. -/
theorem test_mode_6_mamp :
    loadWord (meter 0x30 0x08 0) = some 0x04321093226B#48 ∧ runWord (.mode6Mamp 7) w1 = some 0x04321092886B#48 := by
  decide

/-- V-MT-8, V-MT-38. -/
theorem test_mode_7 :
    loadWord (meter 0x38 0x08 0) = some 0x043210012273#48 ∧ runWord (.mode7Unknown 7) w1 = some 0x043210008873#48 := by
  decide

/-- V-MT-9; P4 edge 3. -/
theorem test_mode_8_temp :
    loadWord (meter 0x40 0x08 0) = some 0x04321085228B#48 ∧
      loadWord 0x0A0030353220200000184089#96 = some 0x0052BB84448B#48 ∧
      runWord (.mode8Temp 1) w1 = some 0x04321085228B#48 := by decide

/-- V-MT-10, V-MT-19 to V-MT-23 (W4). -/
theorem test_mode_9_cap :
    loadWord (meter 0x48 0x00 0) = some 0x043210B7019B#48 ∧ loadWord (meter 0x48 0x10 0) = some 0x043210B7239B#48 ∧
      loadWord (meter 0x48 0x18 0) = some 0x043210A7049B#48 ∧ loadWord (meter 0x48 0x30 0) = some 0x043210A7379B#48 ∧
      loadWord (meter 0x48 0x38 0) = some 0x043210A6489B#48 := by decide

theorem test_mode_9_cap_row :
    runWord (.mode9Cap 1) w1 = some 0x043210B7129B#48 ∧ runWord (.mode9Cap 3) w1 = some 0x043210A7049B#48 := by decide

/-- V-MT-11. -/
theorem test_mode_a_freq :
    loadWord (meter 0x50 0x08 0) = some 0x0432108922AB#48 ∧ runWord (.modeAFreq 1) w1 = some 0x0432108922AB#48 := by
  decide

/-- V-MT-12, V-MT-24, V-MT-25. -/
theorem test_mode_b_diode :
    loadWord (meter 0x58 0x08 0) = some 0x0432108B12BB#48 ∧ loadWord (meter 0x58 0x00 0) = some 0x0432108B01BB#48 ∧
      runWord (.modeBDiode 4) w1 = some 0x0432108A45BB#48 := by decide

/-- W3, all eight positions. -/
theorem test_mode_c_res :
    loadWord (meter 0x60 0x00 0) = some 0x0432108D21CB#48 ∧ loadWord (meter 0x60 0x08 0) = some 0x043210CD02CB#48 ∧
      loadWord (meter 0x60 0x10 0) = some 0x043210CD13CB#48 ∧ loadWord (meter 0x60 0x18 0) = some 0x043210CD24CB#48 ∧
      loadWord (meter 0x60 0x20 0) = some 0x043210DD05CB#48 ∧ loadWord (meter 0x60 0x28 0) = some 0x043210DD16CB#48 ∧
      loadWord (meter 0x60 0x30 0) = some 0x043210CC57CB#48 ∧ loadWord (meter 0x60 0x38 0) = some 0x043210CC68CB#48 := by
  decide

theorem test_mode_c_res_row :
    runWord (.modeCRes 0) w1 = some 0x0432108D21CB#48 ∧ runWord (.modeCRes 4) w1 = some 0x043210DD05CB#48 ∧
      runWord (.modeCRes 7) w1 = some 0x043210CC68CB#48 := by decide

/-- V-MT-14; P4 edge 2. -/
theorem test_mode_d_mv :
    loadWord (meter 0x68 0x08 0) = some 0x0432109B22DB#48 ∧
      loadWord 0x0A0030303030310000106889#96 = some 0x0000019B33DB#48 ∧
      runWord (.modeDMv 1) w1 = some 0x0432109B22DB#48 := by decide

/-- V-DPR-1, V-DPR-7, V-DPR-9, V-DPR-12: bits 7, 6 and 2 to 0 of `F[2]` are ignored. -/
theorem test_mode_e_dcv :
    loadWord (meter 0x70 0x00 0) = some 0x0432108B01EB#48 ∧ loadWord (meter 0x70 0x3F 0) = some 0x0432108A78EB#48 ∧
      loadWord (meter 0x70 0xC8 0) = some 0x0432108B12EB#48 ∧ loadWord (meter 0x70 0x40 0) = some 0x0432108B01EB#48 := by
  decide

/-- V-MC-4, V-MT-33. -/
theorem test_mode_e_dcv_row :
    loadWord (meter 0xF7 0x08 0) = some 0x0432108B12EB#48 ∧
      runWord (.modeEDcv 4) (meter 0x60 0x00 0) = some 0x0432108A45EB#48 := by decide

/-- V-MT-16, V-MC-10, V-MT-34, V-MT-35. -/
theorem test_mode_f_acv :
    loadWord (meter 0x78 0x08 0) = some 0x0432108B12FB#48 ∧ loadWord (meter 0xFF 0x08 0) = some 0x0432108B12FB#48 ∧
      loadWord (meter 0x78 0x00 0) = some 0x0432108B01FB#48 ∧ runWord (.modeFAcv 7) w1 = some 0x0432108A78FB#48 := by
  decide

/-! ## Digit lanes (V-DIG, W6) -/

/-- V-DIG-1, V-DIG-2, V-DIG-8. -/
theorem test_digit_lanes :
    loadWord (digits 0x30 0x31 0x32 0x33 0x34) = some 0x0432108B12EB#48 ∧
      loadWord (digits 0x39 0x38 0x37 0x36 0x35) = some 0x0567898B12EB#48 ∧
      loadWord (digits 0x30 0x30 0x30 0x30 0x30) = some 0x0000008B12EB#48 := by decide

/-- The digit rows, each over V-DIG-8's frame: a word with one nibble of its own (30_encoding.md R80, R81). -/
theorem test_digit_rows :
    let zeros := digits 0x30 0x30 0x30 0x30 0x30
    runWord (.digit1 0) zeros = some 0x0000018B12EB#48 ∧ runWord (.digit2 1) zeros = some 0x0000208B12EB#48 ∧
      runWord (.digit3 2) zeros = some 0x0003008B12EB#48 ∧ runWord (.digit4 3) zeros = some 0x0040008B12EB#48 ∧
      runWord (.digit5 4) zeros = some 0x0500008B12EB#48 ∧ runWord (.digit6 0) zeros = some 0x0000068B12EB#48 ∧
      runWord (.digit7 1) zeros = some 0x0000708B12EB#48 ∧ runWord (.digit8 2) zeros = some 0x0008008B12EB#48 ∧
      runWord (.digit9 3) zeros = some 0x0090008B12EB#48 ∧ runWord (.digit0 4) w1 = some 0x0032108B12EB#48 := by decide

/-- V-DIG-3. -/
theorem test_overflow :
    loadWord (digits 0x3E 0x3E 0x3E 0x3E 0x3E) = some 0x0AAAAA8B12EB#48 ∧
      runWord (.overflow 0) w1 = some 0x04321A8B12EB#48 := by decide

/-- V-DIG-5, V-DIG-6, V-DIG-7: the neighbours of the classes, and bit 7 is not masked off. -/
theorem test_blank :
    loadWord (digits 0x2F 0x3A 0x3D 0x3F 0x00) = some 0x0BBBBB8B12EB#48 ∧
      loadWord (digits 0xB0 0xB1 0x3E 0xFF 0x35) = some 0x05BABB8B12EB#48 ∧
      loadWord (digits 0x20 0x3E 0x20 0x20 0x20) = some 0x0BBBAB8B12EB#48 ∧
      runWord (.blank 4 0x2F) w1 = some 0x0B32108B12EB#48 := by decide

/-! ## Sign (V-SGN, W5) -/

/-- V-SGN-3, V-SGN-4, V-SGN-5. -/
theorem test_sign_pos :
    loadWord (meter 0x70 0x08 0x08) = some 0x0432108B12EB#48 ∧ loadWord (meter 0x70 0x08 0x20) = some 0x0432108B12EB#48 ∧
      loadWord (meter 0x70 0x08 0xEF) = some 0x0432108B12EB#48 ∧
      runWord .signPos (meter 0x70 0x08 0xFF) = some 0x0432108B12EB#48 := by decide

/-- V-SGN-1, V-SGN-6, V-SGN-7. -/
theorem test_sign_neg :
    loadWord (meter 0x70 0x08 0x10) = some 0x0432108B12EF#48 ∧ loadWord (meter 0x70 0x08 0xFF) = some 0x0432108B12EF#48 ∧
      loadWord (meter 0x00 0x08 0x10) = some 0x043210012207#48 ∧ runWord .signNeg w1 = some 0x0432108B12EF#48 := by decide

/-! ## The host's side (V-RND) -/

/-- V-RND-6, V-RND-7. -/
theorem test_render_whole :
    rendered w1 true true = some ⟨['D', 'C', 'V', ' ', '0', '1', '.', '2', '3', '4', ' ', 'V'], []⟩ ∧
      rendered (meter 0x00 0x08 0) true true =
        some ⟨['?', ' ', '0', '1', '2', '.', '3', '4', ' ', '?'], [.modeNotSet, .unitNotSet]⟩ := by decide

/-- V-RND-1, V-RND-4, V-RND-5, V-RND-15. -/
theorem test_render_point :
    rendered 0x0A0035343332310000007089#96 false false = some ⟨['1', '.', '2', '3', '4', '5'], []⟩ ∧
      rendered 0x0A0035343332310000187089#96 false false = some ⟨['1', '2', '3', '4', '.', '5'], []⟩ ∧
      rendered 0x0A0035343332310000207089#96 false false = some ⟨['1', '2', '3', '4', '5'], []⟩ ∧
      rendered (meter 0x70 0x08 0x10) false false = some ⟨['-', '0', '1', '.', '2', '3', '4'], []⟩ := by decide

/-- V-RND-8, V-RND-11, V-RND-13, V-RND-14. -/
theorem test_render_units :
    rendered (meter 0x20 0x08 0) true true =
        some ⟨['c', '4', ' ', '0', '1', '2', '.', '3', '4', ' ', '?'], [.unitNotSet]⟩ ∧
      rendered 0x0A003E3E3E3E3E1000184889#96 true true =
        some ⟨['c', '9', ' ', '-', 'L', '.', 'L', 'L', 'L', 'L', ' ', 'u', 'F'], []⟩ ∧
      rendered (meter 0x30 0x38 0) false true = some ⟨['0', '1', '2', '3', '4', ' ', 'm', 'A'], []⟩ ∧
      rendered (meter 0x60 0x00 0) false true = some ⟨['0', '1', '2', '.', '3', '4', ' ', 'Ω'], []⟩ := by decide

/-- W7 and P2: an invalid frame gives an empty line and the frame's own bytes to the hex formatter. -/
theorem test_cycle_of_an_invalid_frame :
    valueOf (cycleReport exampleHost ⟨true, true⟩ (.ok (marked 0x89 0x0D)) (decodeFrame (marked 0x89 0x0D))) =
      some ⟨[], [.invalidFrameError], exampleHost.hexFormat (bytesOfFrame (marked 0x89 0x0D))⟩ := by decide

/-- W8: a wait that times out and a short read give no frame; the cycle holds. -/
theorem test_cycle_of_a_failed_exchange :
    Exchange.result ⟨1, .timedOut, []⟩ = .error .timeoutError ∧
      Exchange.result ⟨1, .ready, [0x89, 0x70, 0x08]⟩ = .error .shortReadError ∧
      cycleInputs (.error .shortReadError) = Inputs.steady false false 0 := ⟨rfl, rfl, rfl⟩

/-- 60_exceptions.md R224: the codes. -/
theorem test_error_codes :
    [HostError.openError, .configError, .writeError, .timeoutError, .selectError, .lineError, .shortReadError,
      .invalidFrameError, .modeNotSet, .unitNotSet].map HostError.code = [1, 2, 3, 4, 5, 6, 7, 8, 9, 10] := by decide

/-- 60_exceptions.md R224: the columns "class" and "raised by", and code 0. -/
theorem test_error_classes :
    [HostError.openError, .configError, .writeError, .timeoutError, .selectError, .lineError, .shortReadError,
      .invalidFrameError, .modeNotSet, .unitNotSet].map (fun e => (e.errorClass, e.origin)) =
        [(.setupFatal, .transportOpen), (.setupFatal, .transportOpen), (.perExchange, .transportExchange),
          (.perExchange, .transportExchange), (.perExchange, .transportExchange), (.perExchange, .transportExchange),
          (.perExchange, .transportExchange), (.perExchange, .fbpLoad), (.soft, .hostRender), (.soft, .hostRender)] ∧
      HostResult.none.code = 0 ∧ HostResult.none.errorClass = none := by decide

/-- W1 and W7: the result of a cycle with a valid frame, with an invalid one, and with a failed exchange. -/
theorem test_cycle_results :
    (valueOf (cycleResult (.ok w1) (decodeFrame w1))).map HostResult.code = some 0 ∧
      (valueOf (cycleResult (.ok (marked 0x89 0x0D)) (decodeFrame (marked 0x89 0x0D)))).map HostResult.code = some 8 ∧
      (valueOf (cycleResult (.error .timeoutError) (decodeFrame w1))).map HostResult.code = some 4 := by decide

/-- 30_encoding.md R84: no observation of a register with reserved codes, whatever its `FOK`; a transport error looks at
no register. -/
theorem test_reserved_codes_refuse_every_observation :
    valueOf (cycleResult (.ok w1) junk) = none ∧ valueOf (HostResult.none.indication junk) = none ∧
      valueOf (cycleReport exampleHost ⟨true, true⟩ (.ok w1) { junk with fok := false }) = none ∧
      valueOf (cycleResult (.error .lineError) junk) = some (.error .lineError) := by decide

/-- 44_host_render.md R200's pseudocode on a register no LOAD writes, `DPS = 1` with `DP = 4` (log 23). -/
theorem test_render_of_an_unloaded_position :
    (valueOf ({ decodeFrame w1 with dp := 4 } : Register).observe).map
      (fun d => (d.render exampleHost ⟨false, false⟩).text) = some ['0', '1', '2', '3', '4', '.'] := by decide

/-! ## Witnesses: for each statement with hypotheses, states and operands that meet them, clause by clause -/

theorem witness_ResetClearsEveryField :
    (s1 true false w1).pins.stable = true ∧ (s1 true false w1).pins.rst = true ∧ (s1 true false w1).pins.load = false := by
  decide

theorem witness_ResetWinsOverLoad :
    (s1 true true w1).pins.stable = true ∧ (s1 true true w1).pins.rst = true ∧ (s1 true true w1).pins.load = true := by
  decide

/-- The frame may move at a HOLD: all of its bits do here. -/
theorem witness_HoldKeepsTheRegister :
    let s := moving false false false false (BitVec.allOnes 96)
    s.pins.rst = false ∧ s.pins.load = false ∧ s.pins.rstMoves = false ∧ s.pins.loadMoves = false := by decide

theorem witness_LoadCapturesTheFrameAlone :
    let s := s1 false true w1
    s.pins.stable = true ∧ s.pins.rst = false ∧ s.pins.load = true ∧ s.pins.frame = w1 ∧
      w1 = 0x0A0034333231300000087089#96 := by decide

/-- One state for each branch of the step function. -/
theorem witness_StepIsTheStepFunction :
    (ports true true w1).pins.stable = true ∧ (ports false true w1).pins.stable = true ∧
      (ports false false w1).pins.stable = true := by decide

theorem witness_ReadingChangesOnlyAtResetOrLoad :
    ∃ t, (ports false true w1).pins.rstMoves = false ∧ (ports false true w1).pins.loadMoves = false ∧
      step (ports false true w1) = .next t ∧ t.reading ≠ (ports false true w1).reading :=
  ⟨_, by decide, by decide, rfl, by decide⟩

theorem witness_RegisterIsConstantOverHolds :
    let s := (s1 false false 0).drivenBy [Inputs.steady false false w1, Inputs.steady false false 0]
    idle s.pins = true ∧ s.upcoming.all idle = true ∧ s.upcoming ≠ [] := by decide

theorem witness_InstructionsWriteOnlyTheRegister :
    ∃ t, (Instr.overflow 4) ≠ .hold ∧ exec (.overflow 4) (ports false true w1) = .next t :=
  ⟨_, by decide, rfl⟩

/-- Frames that differ, first between the markers, then in the markers only. -/
theorem witness_FramingAndReadingAreIndependent :
    (w1 ≠ meter 0x60 0x20 0x10 ∧ frameByte w1 0 = frameByte (meter 0x60 0x20 0x10) 0 ∧
      frameByte w1 11 = frameByte (meter 0x60 0x20 0x10) 11) ∧
    w1 ≠ marked 0x0A 0x89 ∧ ∀ i < 12, 1 ≤ i → i ≤ 10 → frameByte w1 i = frameByte (marked 0x0A 0x89) i := by decide

/-- 41_field_extract.md R113's boundary bytes of code 0xE, and two just outside. -/
theorem witness_ModeCodeIsItsField :
    modeField (meter 0x70 0 0) = 0xE ∧ modeField (meter 0x77 0 0) = 0xE ∧ modeField (meter 0xF0 0 0) = 0xE ∧
      modeField (meter 0xF7 0 0) = 0xE ∧ modeField (meter 0x78 0 0) ≠ 0xE ∧ modeField (meter 0x6F 0 0) ≠ 0xE := by
  decide

theorem witness_SignIsBitFourOfByteFour :
    frameByte (meter 0x70 0x08 0x10) 4 &&& 0x10#8 = frameByte (meter 0x00 0x38 0xFF) 4 &&& 0x10#8 ∧
      frameByte (meter 0x70 0x08 0xEF) 4 &&& 0x10#8 = frameByte w1 4 &&& 0x10#8 := by decide

/-- Each class at its boundaries: 0x30 and 0x39, 0x3E, and the neighbours that are blank. -/
theorem witness_DigitLanesHoldTheirClass :
    (decodeFrame (digits 0x30 0x39 0x3E 0x2F 0x3A)).digit 0 = 0x0 ∧
      (decodeFrame (digits 0x30 0x39 0x3E 0x2F 0x3A)).digit 1 = 0x9 ∧
      (decodeFrame (digits 0x30 0x39 0x3E 0x2F 0x3A)).digit 2 = 0xA ∧
      (decodeFrame (digits 0x30 0x39 0x3E 0x2F 0x3A)).digit 3 = 0xB ∧
      (decodeFrame (digits 0x30 0x39 0x3E 0x2F 0x3A)).digit 4 = 0xB := by decide

theorem witness_LanesAreIndependentAndAlike :
    frameByte (digits 0x37 0 0 0 0) (5 + (0 : Fin 5).val) = frameByte (digits 0 0 0 0 0x37) (5 + (4 : Fin 5).val) := by
  decide

/-- A frame with every unused bit changed (V-VAL's all-zero and filled bodies). -/
theorem witness_UnusedBitsDoNotMatter :
    let g := w1 ^^^ ~~~0xFF00FFFFFFFFFF10003878FF#96
    w1 ≠ g ∧ w1 &&& 0xFF00FFFFFFFFFF10003878FF#96 = g &&& 0xFF00FFFFFFFFFF10003878FF#96 := by decide

/-- Every code of the mode table has a frame, at the least and the greatest position (rows of R141 to R152). -/
theorem witness_table_rows :
    ∀ code : Nibble, modeField (placeMode w1 code 0) = code ∧ dpField (placeMode w1 code 0) = 0 ∧
      modeField (placeMode w1 code 7) = code ∧ dpField (placeMode w1 code 7) = 7 := by decide

theorem witness_UnchangedPositionRows :
    modeField (meter 0x30 0 0) = 0x6 ∧ modeField (meter 0x40 0 0) = 0x8 ∧ modeField (meter 0x50 0 0) = 0xA ∧
      modeField (meter 0x68 0 0) = 0xD := by decide

theorem witness_MinusOneRows :
    modeField (meter 0x28 0 0) = 0x5 ∧ modeField (meter 0x58 0 0) = 0xB ∧ modeField (meter 0x70 0 0) = 0xE ∧
      modeField (meter 0x78 0 0) = 0xF := by decide

/-- Raw positions 3 and 4, either side of the threshold. -/
theorem witness_CapacitanceRow :
    modeField (meter 0x48 0x10 0) = 0x9 ∧ (dpField (meter 0x48 0x10 0)).toNat + 1 = 3 ∧
      modeField (meter 0x48 0x18 0) = 0x9 ∧ (dpField (meter 0x48 0x18 0)).toNat + 1 = 4 := by decide

/-- Raw positions 1, 2, 4, 5, 6, 7: the boundaries of the three sub-cases. -/
theorem witness_ResistanceRow :
    ([0x00#8, 0x08#8, 0x18#8, 0x20#8, 0x28#8, 0x30#8].map fun b => (dpField (meter 0x60 b 0)).toNat + 1) =
        [1, 2, 4, 5, 6, 7] ∧ modeField (meter 0x60 0 0) = 0xC := by decide

theorem witness_GeneratorRow :
    ∃ t d, modeField (meter 0x20 0x08 0) = 0x4 ∧ exec (.load (meter 0x20 0x08 0)) State.reset = .next t ∧
      t.reg.observe = .next d := ⟨_, _, by decide, rfl, rfl⟩

theorem witness_UnknownRows :
    ∃ t d, modeField (meter 0x38 0x08 0) ∈ [0x0#4, 0x1#4, 0x2#4, 0x3#4, 0x7#4] ∧
      exec (.load (meter 0x38 0x08 0)) State.reset = .next t ∧ t.reg.observe = .next d :=
  ⟨_, _, by decide, rfl, rfl⟩

/-- Both ends of the range: position 0 in each way the statement names, position 8, and 7 beside it. -/
theorem witness_PositionRangeOfTheTable :
    (decodeFrame (meter 0x28 0x00 0)).dp = 0 ∧ (decodeFrame (meter 0x48 0x00 0)).dp = 0 ∧
      (decodeFrame (meter 0x48 0x18 0)).dp = 0 ∧ (decodeFrame (meter 0x60 0x08 0)).dp = 0 ∧
      (decodeFrame (meter 0x60 0x20 0)).dp = 0 ∧ (decodeFrame (meter 0x40 0x38 0)).dp = 8 ∧
      (decodeFrame (meter 0x70 0x38 0)).dp = 7 := by decide

theorem witness_TableFieldsDependOnTwoFields :
    modeField w1 = modeField (frameOf 0 0xF7 0xCF 0xFF 0xFF 1 2 3 4 5 6 7) ∧
      dpField w1 = dpField (frameOf 0 0xF7 0xCF 0xFF 0xFF 1 2 3 4 5 6 7) := by decide

theorem witness_InvalidFrameIsLoaded :
    isInvalidFraming (frameByte (marked 0x89 0x0D) 0) (frameByte (marked 0x89 0x0D) 11) = true ∧
      (∀ i < 12, 1 ≤ i → i ≤ 10 → frameByte w1 i = frameByte (marked 0x89 0x0D) i) ∧ frameOk w1 = true := by decide

theorem witness_FramingRows :
    frameByte w1 0 = 0x89#8 ∧ frameByte w1 11 = 0x0A#8 ∧ isInvalidFraming 0x89 0x0B = true ∧
      isInvalidFraming 0x88 0x0A = true := by decide

theorem witness_DigitRows : (1 : Fin 5) ≠ 0 ∧ (4 : Fin 5) ≠ 0 := by decide

theorem witness_OverflowAndBlankRows :
    isBlankByte 0x00 = true ∧ isBlankByte 0x2F = true ∧ isBlankByte 0x3A = true ∧ isBlankByte 0x3D = true ∧
      isBlankByte 0x3F = true ∧ isBlankByte 0xFF = true := by decide

theorem witness_DecodeOfEncodeIsTheInstruction :
    WellFormed (.load w1) = true ∧ WellFormed (.frameInvalid 0xFF 0x0A) = true ∧ WellFormed (.blank 4 0xFF) = true := by
  decide

theorem witness_PlacedSelectorIsReadBack :
    (WellFormed (.frameInvalid 0x00 0xFF) = true ∧ (Instr.frameInvalid 0x00 0xFF).format = .selector .framing) ∧
      (WellFormed (.modeFAcv 7) = true ∧ (Instr.modeFAcv 7).format = .selector .modeSel) ∧
      (WellFormed (.blank 4 0xFF) = true ∧ (Instr.blank 4 0xFF).format = .selector (.digitLane 4)) ∧
      WellFormed .signNeg = true ∧ Instr.signNeg.format = .selector .sign := by decide

/-- A list each format accepts; and the greatest control byte taken, the least refused. -/
theorem witness_DecoderAcceptsExactlyItsFormat :
    decode .ctrl (3#8 :: bytesOfFrame w1) = .ok (.resetLoad w1) ∧
      decode .ctrl (4#8 :: bytesOfFrame w1) = .error (.controlTooWide 4) ∧
      decode (.selector .framing) [0, 0] = .ok (.frameInvalid 0 0) ∧
      decode (.selector .modeSel) [0xFF, 0xFF] = .ok (.modeFAcv 7) ∧
      decode (.selector (.digitLane 4)) [0xFF] = .ok (.blank 4 0xFF) ∧ decode (.selector .sign) [0xFF] = .ok .signNeg :=
  ⟨rfl, rfl, rfl, rfl, rfl, rfl⟩

/-- Two different registers have different words: the premise of equal words is met by equal ones only. -/
theorem witness_ReadingWordDeterminesTheRegister :
    pack (Register.ofBits 0xFFFFFFFFFFF#44) = pack junk ∧ pack junk ≠ pack Register.zero := by decide

theorem witness_SelectorRowIsALoad :
    WellFormed (.modeCRes 4) = true ∧ (Instr.modeCRes 4).format = .selector .modeSel ∧
      WellFormed (.blank 0 0x2F) = true ∧ (Instr.blank 0 0x2F).format = .selector (.digitLane 0) := by decide

/-- All four values of the control byte. -/
theorem witness_StepRunsTheDecodedOperation :
    decode .ctrl (controlByte (ports false false w1).pins :: bytesOfFrame w1) = .ok .hold ∧
      decode .ctrl (controlByte (ports false true w1).pins :: bytesOfFrame w1) = .ok (.load w1) ∧
      decode .ctrl (controlByte (ports true false w1).pins :: bytesOfFrame w1) = .ok .reset ∧
      decode .ctrl (controlByte (ports true true w1).pins :: bytesOfFrame w1) = .ok (.resetLoad w1) ∧
      (ports true true w1).pins.stable = true ∧ WellFormed (.resetLoad w1) = true :=
  ⟨rfl, rfl, rfl, rfl, by decide, rfl⟩

theorem witness_LoadStepRunsEverySelectedRow :
    (s1 false true w1).pins.stable = true ∧ (s1 false true w1).pins.rst = false ∧ (s1 false true w1).pins.load = true := by
  decide

/-- A word of every format. -/
theorem witness_PlacedTableWordRunsNext :
    decodeTableWord 8 0x03 = some (.resetLoad 0) ∧ decodeTableWord 8 0x30 = some (.mode6Mamp 0) ∧
      decodeTableWord 8 0x3E = some (.overflow 0) ∧ decodeTableWord 8 0x10 = some .signNeg ∧
      decodeTableWord 96 0x0A0034333231300000087089 = some .frameValid := by decide

theorem witness_StepKeepsTheInvariant :
    ∃ t, (s1 false true w1).Inv ∧ step (s1 false true w1) = .next t := ⟨_, ⟨by decide, by decide⟩, rfl⟩

/-- From a register full of reserved codes, by RESET and by LOAD. -/
theorem witness_LoadOrResetMakesTheRegisterLegal :
    let s := { ports false true w1 with reg := junk }
    let r := { ports true false w1 with reg := junk }
    s.pins.stable = true ∧ s.pins.load = true ∧ s.reg.legal = false ∧ r.pins.stable = true ∧ r.pins.rst = true := by
  decide

theorem witness_PowerUpIsAFreeDraw :
    (ports true false 0).pins.stable = true ∧ (ports true false 0).pins.rst = true := by decide

theorem witness_UnstableControlFreesEveryField :
    (moving true false true false 0).pins.rstMoves = true ∧ (moving false true false true 0).pins.loadMoves = true := by
  decide

/-- The sign bit alone moves: every other field's premise is met, and a second frame of the moving bits exists. -/
theorem witness_UnstableFrameKeepsIndependentFields :
    let s := moving false true false false 0x1000000000#96
    let g := meter 0x70 0x08 0x10
    s.pins.rst = false ∧ s.pins.load = true ∧ s.pins.rstMoves = false ∧ s.pins.loadMoves = false ∧
      (g ^^^ s.pins.frame) &&& ~~~s.pins.frameMoves = 0 ∧ g ≠ s.pins.frame ∧
      s.pins.frameMoves &&& selectorMask .framing = 0 ∧ s.pins.frameMoves &&& selectorMask .modeSel = 0 ∧
      (∀ lane, s.pins.frameMoves &&& selectorMask (.digitLane lane) = 0) ∧
      s.pins.frameMoves &&& selectorMask .sign ≠ 0 := by decide

/-- The sign's own premise, with a bit of the line-feed marker moving. -/
theorem witness_UnstableFrameKeepsTheSign :
    let s := moving false true false false (1#96 <<< 95)
    s.pins.frameMoves &&& selectorMask .sign = 0 ∧ s.pins.frameMoves &&& selectorMask .framing ≠ 0 := by decide

/-- One of the table's two fields moves alone: the premises on the other field are met. -/
theorem witness_UnstableFrameKeepsIndependentFields_table :
    let position := moving false true false false positionMask
    let mode := moving false true false false modeMask
    position.pins.frameMoves &&& modeMask = 0 ∧ position.pins.frameMoves &&& selectorMask .modeSel ≠ 0 ∧
      mode.pins.frameMoves &&& positionMask = 0 ∧ mode.pins.frameMoves &&& selectorMask .modeSel ≠ 0 := by decide

/-- Each clause at the edge of its bits: every bit moves; then one bit of each part alone. -/
theorem witness_UnstableFrameFreesDependentFields :
    let s := moving false true false false (BitVec.allOnes 96)
    s.pins.rst = false ∧ s.pins.load = true ∧ s.pins.rstMoves = false ∧ s.pins.loadMoves = false ∧
      s.pins.frameMoves ≠ 0 ∧ s.pins.frameMoves &&& selectorMask .sign ≠ 0 ∧
      (∀ lane, s.pins.frameMoves &&& selectorMask (.digitLane lane) ≠ 0) ∧
      (1#96 <<< 95) &&& selectorMask .framing ≠ 0 ∧ (1#96 <<< 7) &&& selectorMask .framing ≠ 0 ∧
      (1#96 <<< 14) &&& modeMask ≠ 0 ∧ (1#96 <<< 11) &&& selectorMask .modeSel ≠ 0 ∧
      (1#96 <<< 21) &&& positionMask ≠ 0 ∧ (1#96 <<< 19) &&& selectorMask .modeSel ≠ 0 := by decide

/-- A RESET, a RESETLOAD and a HOLD whose whole frame moves. -/
theorem witness_SteadyControlDecidesTheEdge :
    let reset := moving true false false false (BitVec.allOnes 96)
    let both := moving true true false false (BitVec.allOnes 96)
    let hold := moving false false false false (BitVec.allOnes 96)
    (reset.pins.rstMoves = false ∧ reset.pins.loadMoves = false ∧ reset.pins.rst = true) ∧
      (both.pins.rstMoves = false ∧ both.pins.loadMoves = false ∧ both.pins.rst = true) ∧
      hold.pins.rstMoves = false ∧ hold.pins.loadMoves = false ∧ hold.pins.rst = false ∧ hold.pins.load = false := by
  decide

theorem witness_SoftDiagnosticsOfARendering :
    ∃ d e, (decodeFrame (meter 0 0 0)).observe = .next d ∧ (decodeFrame w1).observe = .next e :=
  ⟨_, _, rfl, rfl⟩

/-- Positions 3 and 4, either side of the last point. -/
theorem witness_DigitPartOfARendering :
    ∃ d e, (decodeFrame (meter 0x70 0x18 0)).observe = .next d ∧ (decodeFrame (meter 0x70 0x18 0)).dp = 3 ∧
      (decodeFrame (meter 0x70 0x20 0)).observe = .next e ∧ (decodeFrame (meter 0x70 0x20 0)).dp = 4 :=
  ⟨_, _, rfl, by decide, rfl, by decide⟩

/-- A register for each clause: reset; an invalid frame; each kind of reserved code at its least; the greatest legal
codes. -/
theorem witness_RenderingIsRefusedWithoutAReading :
    Register.zero.rdy = false ∧
      ((decodeFrame (marked 0 0)).rdy = true ∧ (decodeFrame (marked 0 0)).fok = false) ∧
      ((decodeFrame w1).rdy = true ∧ (decodeFrame w1).fok = true ∧ ({ decodeFrame w1 with unit := 7 } : Register).unit = 7) ∧
      6 ≤ ({ decodeFrame w1 with pfx := 6 } : Register).pfx.toNat ∧
      12 ≤ (({ decodeFrame w1 with d4 := 12 } : Register).digit 4).toNat ∧
      ((decodeFrame (digits 0 0 0 0 0)).unit ≠ 7 ∧ (decodeFrame (digits 0 0 0 0 0)).pfx.toNat ≤ 5 ∧
        ∀ lane, ((decodeFrame (digits 0 0 0 0 0)).digit lane).toNat ≤ 11) := by decide

/-- A register for each clause: each kind of reserved code at its least with `RDY = 1`, none reserved, `RDY = 0`. -/
theorem witness_ReservedCodesAreNeverObserved :
    ({ decodeFrame w1 with d0 := 12 } : Register).hasReservedCode = true ∧
      ({ decodeFrame w1 with unit := 7 } : Register).hasReservedCode = true ∧
      ({ decodeFrame w1 with pfx := 6, fok := false } : Register).hasReservedCode = true ∧
      (decodeFrame w1).rdy = true ∧ (decodeFrame (digits 0 0x3E 0 0 0)).hasReservedCode = false ∧
      (decodeFrame w1).shows = true ∧ Register.zero.rdy = false ∧ Register.zero.shows = false := by decide

/-- Both kinds of frame for the cycle. -/
theorem witness_CyclePriority : frameOk w1 = true ∧ frameOk (marked 0x89 0x0D) = false := by decide

/-- An exchange for each clause; lengths 11 and 13 beside 12. -/
theorem witness_ExchangeGivesAFrameOrOneError :
    (Exchange.mk 0 .ready []).result = .error .writeError ∧ (Exchange.mk 2 .ready []).result = .error .writeError ∧
      (Exchange.mk 1 .timedOut []).result = .error .timeoutError ∧
      (Exchange.mk 1 .failed []).result = .error .selectError ∧
      (Exchange.mk 1 .lineCondition []).result = .error .lineError ∧
      (Exchange.mk 1 .ready ((bytesOfFrame w1).take 11)).result = .error .shortReadError ∧
      (Exchange.mk 1 .ready (bytesOfFrame w1 ++ [0x0D])).result = .error .shortReadError ∧
      (Exchange.mk 1 .ready (bytesOfFrame w1)).result = .ok w1 := ⟨rfl, rfl, rfl, rfl, rfl, rfl, rfl, rfl⟩

end Sys2Proof.Tests
end

section
/-! PROOFS. The family 10_state.md: what an edge does to the register, which registers are legal, the reading word as a
view of the register, and the statements assembled from these. -/

namespace Sys2Proof.Machine

open Sys2Proof.Claims

/-! ## What an instruction writes -/

/-- Every instruction completes, and writes the register and nothing else (10_state.md R23). -/
theorem exec_eq_setReg (i : Instr) (s : State) : ∃ r, exec i s = .next (s.setReg r) := by
  cases i
  case hold => exact ⟨s.reg, rfl⟩
  all_goals exact ⟨_, rfl⟩

/-- Every instruction but HOLD gives the same result whatever the register held. -/
theorem exec_setReg {i : Instr} (hi : i ≠ .hold) (s : State) (r : Register) : exec i (s.setReg r) = exec i s := by
  cases i
  case hold => exact absurd rfl hi
  all_goals rfl

/-! ## What an edge with stable inputs writes -/

/-- The register that the operation sampled at the coming edge leaves (43_control.md R186). -/
def State.sampledRegister (s : State) : Register :=
  if s.pins.rst then Register.zero else if s.pins.load then decodeFrame s.pins.frame else s.reg

/-- The operation sampled at an edge writes the sampled register. -/
theorem exec_operation (s : State) : exec s.pins.operation s = .next (s.setReg s.sampledRegister) := by
  unfold Inputs.operation decodeControl
  split
  all_goals next hrst hload => simp only [State.sampledRegister, hrst, hload, reduceIte, Bool.false_eq_true]; rfl

/-- A step with stable inputs writes the sampled register, and then the host drives the next inputs. -/
theorem step_eq_of_stable {s : State} (h : s.pins.stable = true) :
    step s = .next (s.setReg s.sampledRegister).nextInputs :=
  step_of_stable h (exec_operation s)

/-- An idle edge leaves the state as it is, but for the host's next inputs (43_control.md R185). -/
theorem step_eq_of_idle {s : State} (h : idle s.pins = true) : step s = .next s.nextInputs := by
  simp only [idle, Bool.and_eq_true, Bool.not_eq_true'] at h
  obtain ⟨⟨⟨hrst, hload⟩, hrstMoves⟩, hloadMoves⟩ := h
  have hreg : s.sampledRegister = s.reg := by simp [State.sampledRegister, hrst, hload]
  rw [step_of_next (exec_operation s), hreg, State.setReg_self,
    settleEdge_of_no_load s hrstMoves hloadMoves (.inr hload)]

/-- What holds of the inputs at the coming edge and at every planned one holds of them after the edge (log 1). -/
theorem State.nextInputs_keeps {p : Inputs → Bool} {s : State} (hnow : p s.pins = true)
    (hlater : s.upcoming.all p = true) : p s.nextInputs.pins = true ∧ s.nextInputs.upcoming.all p = true := by
  unfold State.nextInputs
  split
  · exact ⟨hnow, hlater⟩
  · next c cs hplan => simpa [hplan] using hlater

/-! ## The rows of the mode table -/

/-- A row is known exactly for the eleven named codes (42_mode_table.md R140). -/
theorem modeTable_mkn (mc : Nibble) (p : Int) : (modeTable mc p).mkn = true ↔ 4 ≤ mc.toNat ∧ mc.toNat ≠ 7 := by
  have hcap : (rowCap p).mkn = true := by unfold rowCap; split <;> rfl
  have hres : (rowRes p).mkn = true := by unfold rowRes; split_ifs <;> rfl
  unfold modeTable
  split
  case h_5 h => simp [h, hcap]
  case h_8 h => simp [h, hres]
  case h_12 =>
    have hmc : mc.toNat < 16 := mc.isLt
    have hother : ¬(4 ≤ mc.toNat ∧ mc.toNat ≠ 7) := by simp only [imp_false] at *; omega
    simp [rowUnknown, hother]
  all_goals next h => simp [h, rowGen, rowAmp, rowMamp, rowTemp, rowFreq, rowDiode, rowMv, rowDcv, rowAcv]

/-- The adjusted position of a raw position from 1 to 8 is from 0 to 8 (42_mode_table.md R157). -/
theorem modeTable_dp_range (mc : Nibble) {p : Int} (hlow : 1 ≤ p) (hhigh : p ≤ 8) :
    0 ≤ (modeTable mc p).dp ∧ (modeTable mc p).dp ≤ 8 := by
  have hcap : 0 ≤ (rowCap p).dp ∧ (rowCap p).dp ≤ 8 := by unfold rowCap; split <;> dsimp only <;> omega
  have hres : 0 ≤ (rowRes p).dp ∧ (rowRes p).dp ≤ 8 := by unfold rowRes; split_ifs <;> dsimp only <;> omega
  unfold modeTable
  split
  case h_5 => exact hcap
  case h_8 => exact hres
  all_goals
    dsimp only [rowGen, rowAmp, rowMamp, rowTemp, rowFreq, rowDiode, rowMv, rowDcv, rowAcv, rowUnknown]
    omega

/-- A position from 0 to 8 is kept whole by the four bits of `DP` (42_mode_table.md R157). -/
theorem toNat_ofInt_of_range {d : Int} (hlow : 0 ≤ d) (hhigh : d ≤ 8) : (BitVec.ofInt 4 d).toNat = d.toNat := by
  rw [BitVec.toNat_ofInt]
  omega

theorem pointShown_iff {d : Int} (hlow : 0 ≤ d) : pointShown d = true ↔ d.toNat ≤ 3 := by
  simp [pointShown, hlow]

theorem unitCode_le (u : MeterUnit) : (unitCode u).toNat ≤ 6 := by cases u <;> decide

theorem prefixCode_le (p : MeterPrefix) : (prefixCode p).toNat ≤ 5 := by cases p <;> decide

theorem unitKnown_iff (u : MeterUnit) : unitKnown u = true ↔ unitCode u ≠ 0 := by cases u <;> decide

theorem laneCode_le (f : Frame) (lane : Fin 5) : (laneCode f lane).toNat ≤ 11 := dcode_le _

theorem dpr_range (f : Frame) : 1 ≤ (dpr f).toNat ∧ (dpr f).toNat ≤ 8 := by
  have hfield : (dpField f).toNat < 8 := (dpField f).isLt
  rw [dpr, rawPosition_toNat]
  omega

/-! ## Legal registers -/

/-- RESET leaves a legal register (10_state.md R33). -/
@[simp] theorem Register.zero_legal : Register.zero.legal = true := rfl

/-- The legal values of a loaded register, as propositions (10_state.md R22, R25, R28). -/
theorem Register.loadedLegal_iff (r : Register) :
    r.loadedLegal = true ↔ r.rdy = true ∧ (1 ≤ r.dpr.toNat ∧ r.dpr.toNat ≤ 8) ∧ r.dp.toNat ≤ 8 ∧
      (r.dps = true ↔ r.dp.toNat ≤ 3) ∧ r.unit.toNat ≤ 6 ∧ r.pfx.toNat ≤ 5 ∧ (r.ukn = true ↔ r.unit ≠ 0) ∧
      (r.mkn = true ↔ 4 ≤ r.mode.toNat ∧ r.mode.toNat ≠ 7) ∧ ∀ lane, (r.digit lane).toNat ≤ 11 := by
  have hflag (b c : Bool) : (b == c) = true ↔ (b = true ↔ c = true) := beq_iff_eq.trans Bool.eq_iff_iff
  simp [-beq_iff_eq, Register.loadedLegal, hflag, Fin.forall_fin_succ, Register.digit, and_assoc]

/-- LOAD of any frame leaves a loaded register that is legal (10_state.md R22, R28). -/
theorem decodeFrame_loadedLegal (f : Frame) : (decodeFrame f).loadedLegal = true := by
  have hp := dpr_range f
  obtain ⟨hd0, hd8⟩ := modeTable_dp_range (modeCode f) (p := (dpr f).toNat) (by omega) (by omega)
  have hdp : (decodeFrame f).dp.toNat = (modeTable (modeCode f) (dpr f).toNat).dp.toNat := toNat_ofInt_of_range hd0 hd8
  exact (Register.loadedLegal_iff _).mpr ⟨rfl, hp, by omega, hdp ▸ pointShown_iff hd0, unitCode_le _, prefixCode_le _,
    unitKnown_iff _, modeTable_mkn _ _, fun lane => by simpa using laneCode_le f lane⟩

@[simp] theorem decodeFrame_legal (f : Frame) : (decodeFrame f).legal = true := by
  simp [Register.legal, decodeFrame_loadedLegal]

/-- The sampled operation leaves a legal register where RESET or LOAD is driven, or the register was legal. -/
theorem sampledRegister_legal {s : State} (h : s.pins.rst = true ∨ s.pins.load = true ∨ s.reg.legal = true) :
    s.sampledRegister.legal = true := by
  unfold State.sampledRegister
  split
  · exact Register.zero_legal
  · split
    · exact decodeFrame_legal _
    · simpa [*] using h

/-- The reserved codes, lane by lane (30_encoding.md R81 to R83). -/
theorem hasReservedCode_iff (r : Register) :
    r.hasReservedCode = true ↔ r.unit = 7 ∨ 6 ≤ r.pfx.toNat ∨ ∃ lane, 12 ≤ (r.digit lane).toNat := by
  have hunit : 7 ≤ r.unit.toNat ↔ r.unit = 7 := by
    generalize r.unit = u
    revert u
    decide
  have hlanes : (∃ lane, 12 ≤ (r.digit lane).toNat) ↔ 12 ≤ r.d0.toNat ∨ 12 ≤ r.d1.toNat ∨ 12 ≤ r.d2.toNat ∨
      12 ≤ r.d3.toNat ∨ 12 ≤ r.d4.toNat := by
    simp [Fin.exists_fin_succ, Register.digit]
  rw [hlanes]
  simp only [Register.hasReservedCode, Bool.or_eq_true, decide_eq_true_eq, hunit]
  tauto

/-- A legal register holds no reserved code (10_state.md R22, 30_encoding.md R84). -/
theorem hasReservedCode_of_legal {r : Register} (h : r.legal = true) : r.hasReservedCode = false := by
  simp only [Register.legal, Bool.or_eq_true, beq_iff_eq] at h
  rcases h with rfl | h
  · rfl
  · obtain ⟨-, -, -, -, hunit, hpfx, -, -, hdigit⟩ := r.loadedLegal_iff.mp h
    rw [← Bool.not_eq_true, hasReservedCode_iff]
    rintro (hres | hres | ⟨lane, hres⟩)
    · simp [hres] at hunit
    · omega
    · have := hdigit lane; omega

/-- A legal register can be observed. -/
theorem observe_of_legal {r : Register} (h : r.legal = true) : ∃ d, r.observe = .next d := by
  rcases observe_cases r with ⟨hres, -⟩ | ⟨-, hd⟩
  · simp [hasReservedCode_of_legal h] at hres
  · exact hd

/-! ## The reading word -/

/-- The state bits of a register give it back (30_encoding.md R80). -/
@[simp] theorem Register.ofBits_bits (r : Register) : Register.ofBits r.bits = r := by
  cases r
  simp (disch := omega) only [Register.ofBits, Register.bits, BitVec.extractLsb'_cast,
    BitVec.extractLsb'_append_eq_of_le, BitVec.extractLsb'_append_eq_of_add_le, BitVec.extractLsb'_eq_self,
    Nat.reduceSub]
  simp only [BitVec.getLsbD_cast, BitVec.getLsbD_append, BitVec.getLsbD_ofBool]
  simp

/-- Every value of the 44 state bits is that of the register it gives (10_state.md R22). -/
@[simp] theorem Register.bits_ofBits (b : RegisterBits) : (Register.ofBits b).bits = b := by
  apply BitVec.eq_of_getLsbD_eq
  intro i hi
  simp only [Register.bits, Register.ofBits, BitVec.getLsbD_cast, BitVec.getLsbD_append, BitVec.getLsbD_extractLsb',
    BitVec.getLsbD_ofBool]
  have h44 : i < 44 := hi
  clear hi
  interval_cases i <;> simp

/-- The reading word's low 44 bits are the state bits (30_encoding.md R80). -/
@[simp] theorem pack_extractLsb' (r : Register) : (pack r).extractLsb' 0 44 = r.bits := by
  rw [pack, BitVec.cast_eq, BitVec.extractLsb'_append_eq_right]

/-! ## Rendering -/

/-- The renderer is called on a loaded register whose frame passed the check: it refuses a reserved code, and prints any
other reading (44_host_render.md R201, log 12). -/
theorem render_cases {r : Register} (hrdy : r.rdy = true) (hfok : r.fok = true) (hp : Config.HostParams)
    (o : RenderOptions) :
    (r.hasReservedCode = true ∧ r.render hp o = .refused .reservedCode) ∨
      (r.hasReservedCode = false ∧ ∃ t, r.render hp o = .next t) := by
  rcases observe_cases r with ⟨hres, hobs⟩ | ⟨hres, d, hobs⟩
  · exact .inl ⟨hres, by simp [Register.render, hrdy, hfok, hobs]⟩
  · exact .inr ⟨hres, d.render hp o, by simp [Register.render, hrdy, hfok, hobs]⟩

/-! ## The obligations -/

/-- Settles O44: a stable edge leaves the sampled register, which is legal where the register was, and keeps the host's
plan stable. -/
theorem stepKeepsTheInvariant : Obligations.StepKeepsTheInvariant := by
  rintro s t ⟨hlegal, hhost⟩ hstep
  obtain ⟨hnow, hlater⟩ : s.pins.stable = true ∧ s.upcoming.all Inputs.stable = true := by
    simpa [State.hostStable] using hhost
  rw [step_eq_of_stable hnow] at hstep
  cases hstep
  obtain ⟨hnow', hlater'⟩ := State.nextInputs_keeps (s := s.setReg s.sampledRegister) hnow hlater
  refine ⟨?_, ?_⟩
  · simpa using sampledRegister_legal (.inr (.inr hlegal))
  · simp [State.hostStable, hnow', hlater']

/-- Settles O8, by induction on the number of edges, the state generalised: an idle edge keeps the register and leaves
an idle host. -/
theorem registerIsConstantOverHolds : Obligations.RegisterIsConstantOverHolds := by
  intro n
  induction n with
  | zero => exact fun s _ _ => ⟨s, rfl, rfl, rfl, rfl⟩
  | succ n ih =>
    intro s hnow hlater
    obtain ⟨hnow', hlater'⟩ := State.nextInputs_keeps hnow hlater
    obtain ⟨t, hrun, hreg, hreading, hdraws⟩ := ih s.nextInputs hnow' hlater'
    have hstep : Sys2Proof.core.step s = .next s.nextInputs := step_eq_of_idle hnow
    refine ⟨t, ?_, ?_, ?_, ?_⟩
    · simpa only [Host.Core.run, hstep] using hrun
    · rw [hreg, State.nextInputs_reg]
    · rw [hreading, State.reading, State.nextInputs_reg, State.reading]
    · rw [hdraws, State.nextInputs_draws]

/-- Settles O10: every instruction writes the register only, and all but HOLD ignore what it held. -/
theorem instructionsWriteOnlyTheRegister : Obligations.InstructionsWriteOnlyTheRegister := by
  refine ⟨fun i s t hexec => ?_, fun i s t r hi hexec => ?_⟩
  · obtain ⟨r, hr⟩ := exec_eq_setReg i s
    cases hr.symm.trans hexec
    exact ⟨rfl, rfl, rfl⟩
  · rw [exec_setReg hi, hexec]

/-- Settles O39: the reading word gives the state bits back, and they the register. -/
theorem readingWordDeterminesTheRegister : Obligations.ReadingWordDeterminesTheRegister := by
  refine ⟨fun r q hpack => ?_, Register.bits_ofBits⟩
  have hbits : r.bits = q.bits := by rw [← pack_extractLsb' r, hpack, pack_extractLsb']
  rw [← Register.ofBits_bits r, hbits, Register.ofBits_bits]

/-- Settles O46: the edge leaves 0 or a loaded register, both legal, and a legal register can be observed. -/
theorem loadOrResetMakesTheRegisterLegal : Obligations.LoadOrResetMakesTheRegisterLegal := by
  intro s hstable hdriven
  have hlegal : s.sampledRegister.legal = true := sampledRegister_legal (or_assoc.mp (.inl hdriven))
  obtain ⟨d, hobs⟩ := observe_of_legal hlegal
  exact ⟨_, d, step_eq_of_stable hstable, by simpa using hlegal, by simpa using hobs⟩

/-- Settles O52: `RDY` is checked first, then `FOK`, then the codes. -/
theorem renderingIsRefusedWithoutAReading : Obligations.RenderingIsRefusedWithoutAReading := by
  intro r hp o
  refine ⟨fun hrdy => ?_, fun hrdy hfok => ?_, fun hrdy hfok => ?_, fun hrdy hfok hunit hpfx hdigit => ?_⟩
  · simp [Register.render, hrdy]
  · simp [Register.render, hrdy, hfok]
  · rw [← hasReservedCode_iff]
    rcases render_cases hrdy hfok hp o with ⟨hres, hrender⟩ | ⟨hres, t, hrender⟩ <;> simp [hres, hrender]
  · rcases render_cases hrdy hfok hp o with ⟨hres, -⟩ | ⟨-, hrender⟩
    · rcases (hasReservedCode_iff r).mp hres with h | h | ⟨lane, h⟩
      · exact absurd h hunit
      · omega
      · have := hdigit lane; omega
    · exact hrender

/-- Settles O45: `REG` is 0 after reset, and no input moves. -/
theorem resetMeetsTheInvariant : Obligations.ResetMeetsTheInvariant := ⟨Register.zero_legal, rfl⟩

end Sys2Proof.Machine
end

section
/-! PROOFS. The family 20_memory.md: a row that one part of a frame selects is the LOAD of a frame (log 4). Three facts
make it so: what the row of a part runs as; that no two parts of a frame share a bit; and what putting a row in place
changes. -/

namespace Sys2Proof.Machine

open Sys2Proof.Claims

/-! ## What the selected row of a part runs as -/

theorem exec_decodeFraming (cmd lf : Byte) (s : State) :
    exec (decodeFraming cmd lf) s = .next (s.loadFraming (framingCheck cmd lf)) := by
  cases hcheck : framingCheck cmd lf
  all_goals
    rw [framingCheck] at hcheck
    rw [decodeFraming, hcheck]
    rfl

theorem exec_decodeMode (mc : Nibble) (dpf : Code3) (s : State) :
    exec (decodeMode mc dpf) s = .next (s.loadMode mc dpf (modeTable mc)) := by
  obtain ⟨⟨n, hn⟩⟩ := mc
  interval_cases n <;> rfl

theorem exec_decodeDigit (lane : Fin 5) (b : Byte) (s : State) :
    exec (decodeDigit lane b) s = .next (s.loadDigit lane (dcode b)) := by
  unfold decodeDigit
  split
  case h_12 =>
    have hblank : dcode b = blankCode := by
      simp only [imp_false] at *
      apply BitVec.eq_of_toNat_eq
      rw [dcode_toNat, if_neg (by omega), if_neg (by omega)]
      rfl
    rw [hblank]
    rfl
  all_goals
    next hb =>
      have hbyte := congrArg (BitVec.ofNat 8) hb
      rw [BitVec.ofNat_toNat, BitVec.setWidth_eq] at hbyte
      subst hbyte
      rfl

theorem exec_decodeSign (negative : Bool) (s : State) :
    exec (decodeSign negative) s = .next (s.loadSign negative) := by
  cases negative <;> rfl

/-- LOAD of the frame at the port in which the part `k` reads as it does in the frame `f` (log 4). -/
def State.loadPart (s : State) (k : Selector) (f : Frame) : State :=
  match k with
  | .framing => s.loadFraming (frameOk f)
  | .modeSel => s.loadMode (modeCode f) (dpField f) (modeTable (modeCode f))
  | .digitLane lane => s.loadDigit lane (laneCode f lane)
  | .sign => s.loadSign (signBit f)

/-- The row that a part of any frame selects loads that part. -/
theorem exec_select (k : Selector) (f : Frame) (s : State) : exec (select k f) s = .next (s.loadPart k f) := by
  cases k
  case framing => exact exec_decodeFraming _ _ s
  case modeSel => exact exec_decodeMode _ _ s
  case digitLane lane => exact exec_decodeDigit lane _ s
  case sign => exact exec_decodeSign _ s

/-! ## The bits that a part reads -/

theorem mem_selectors (k : Selector) : k ∈ selectors := by
  cases k
  case digitLane lane => revert lane; decide
  all_goals decide

/-- No two parts of a frame share a bit (30_encoding.md R71). -/
theorem selectorMask_and_not {k l : Selector} (h : k ≠ l) :
    selectorMask l &&& ~~~(selectorMask k) = selectorMask l := by
  have hall : ∀ k ∈ selectors, ∀ l ∈ selectors, k ≠ l →
      selectorMask l &&& ~~~(selectorMask k) = selectorMask l := by decide
  exact hall k (mem_selectors k) l (mem_selectors l) h

/-- Frames that agree outside one part agree on every other part. -/
theorem and_selectorMask_eq {k l : Selector} {f g : Frame} (h : k ≠ l)
    (hfg : f &&& ~~~(selectorMask k) = g &&& ~~~(selectorMask k)) : f &&& selectorMask l = g &&& selectorMask l := by
  have hpart (e : Frame) : e &&& selectorMask l = e &&& ~~~(selectorMask k) &&& selectorMask l := by
    rw [BitVec.and_assoc, BitVec.and_comm (~~~_), selectorMask_and_not h]
  rw [hpart f, hpart g, hfg]

/-- A slice all of whose bits a mask keeps is the same in frames that agree under the mask. -/
theorem extractLsb'_eq_of_and_eq {f g m : Frame} {lo n : Nat} (hm : m.extractLsb' lo n = BitVec.allOnes n)
    (h : f &&& m = g &&& m) : f.extractLsb' lo n = g.extractLsb' lo n := by
  have hslice := congrArg (BitVec.extractLsb' lo n) h
  simpa [BitVec.extractLsb'_and, hm] using hslice

theorem frameOk_eq_of_and_eq {f g : Frame} (h : f &&& selectorMask .framing = g &&& selectorMask .framing) :
    frameOk f = frameOk g := by
  have hcmd : frameByte f 0 = frameByte g 0 := extractLsb'_eq_of_and_eq (by decide) h
  have hlf : frameByte f 11 = frameByte g 11 := extractLsb'_eq_of_and_eq (by decide) h
  rw [frameOk, hcmd, hlf, frameOk]

theorem modeField_eq_of_and_eq {f g : Frame} (h : f &&& selectorMask .modeSel = g &&& selectorMask .modeSel) :
    modeField f = modeField g :=
  extractLsb'_eq_of_and_eq (by decide) h

theorem dpField_eq_of_and_eq {f g : Frame} (h : f &&& selectorMask .modeSel = g &&& selectorMask .modeSel) :
    dpField f = dpField g :=
  extractLsb'_eq_of_and_eq (by decide) h

theorem selectorMask_digitLane_extractLsb' (lane : Fin 5) :
    (selectorMask (.digitLane lane)).extractLsb' (8 * (5 + lane.val)) 8 = BitVec.allOnes 8 := by
  revert lane; decide

theorem digitByte_eq_of_and_eq {f g : Frame} {lane : Fin 5}
    (h : f &&& selectorMask (.digitLane lane) = g &&& selectorMask (.digitLane lane)) :
    digitByte f lane = digitByte g lane :=
  extractLsb'_eq_of_and_eq (selectorMask_digitLane_extractLsb' lane) h

theorem signField_eq_extractLsb' (f : Frame) : signField f = (f.extractLsb' 36 1).getLsbD 0 := by
  simp [signField]

theorem signField_eq_of_and_eq {f g : Frame} (h : f &&& selectorMask .sign = g &&& selectorMask .sign) :
    signField f = signField g := by
  rw [signField_eq_extractLsb', signField_eq_extractLsb', extractLsb'_eq_of_and_eq (by decide) h]

/-! ## The LOAD of a frame, part by part -/

/-- Loading one part of a frame that agrees with the port outside this part is the LOAD of the frame. -/
theorem loadPart_eq_loadFrame {s : State} {k : Selector} {f : Frame}
    (h : f &&& ~~~(selectorMask k) = s.pins.frame &&& ~~~(selectorMask k)) : s.loadPart k f = s.loadFrame f := by
  have hfok (hk : k ≠ .framing) := frameOk_eq_of_and_eq (and_selectorMask_eq hk h)
  have hmode (hk : k ≠ .modeSel) := modeField_eq_of_and_eq (and_selectorMask_eq hk h)
  have hdpf (hk : k ≠ .modeSel) := dpField_eq_of_and_eq (and_selectorMask_eq hk h)
  have hsign (hk : k ≠ .sign) := signField_eq_of_and_eq (and_selectorMask_eq hk h)
  have hbyte (lane : Fin 5) (hk : k ≠ .digitLane lane) := digitByte_eq_of_and_eq (and_selectorMask_eq hk h)
  cases k
  all_goals refine congrArg s.setReg ?_
  case framing => simp [decodeFrame, modeCode, dpr, signBit, laneCode, hmode, hdpf, hsign, hbyte]
  case modeSel => simp [decodeFrame, Register.withRow, modeCode, dpr, signBit, laneCode, hfok, hsign, hbyte]
  case sign => simp [decodeFrame, modeCode, dpr, laneCode, hfok, hmode, hdpf, hbyte]
  case digitLane lane =>
    apply Register.ext_fields
    case hd =>
      intro other
      by_cases hother : other = lane
      · simp [hother]
      · simp [Register.withDigit_digit_other _ _ hother, laneCode, hbyte other (by simpa using Ne.symm hother)]
    all_goals simp [modeCode, dpr, signBit, hfok, hmode, hdpf, hsign]

/-! ## A row put in place -/

/-- The bits of a frame in which a field was replaced. -/
theorem getLsbD_putBits (f : Frame) (lo : Nat) {n : Nat} (v : BitVec n) {i : Nat} (hi : i < 96) :
    (putBits f lo v).getLsbD i = if lo ≤ i ∧ i < lo + n then v.getLsbD (i - lo) else f.getLsbD i := by
  by_cases hlo : i < lo
  · simp [putBits, hi, hlo, Nat.not_le.mpr hlo]
  · have hfield : i - lo < n ↔ i < lo + n := by omega
    by_cases hn : i < lo + n
    · simp [putBits, hi, hlo, hfield, hn, Nat.not_lt.mp hlo]
    · have hbeyond : v.getLsbD (i - lo) = false := BitVec.getLsbD_of_ge v _ (by omega)
      simp [putBits, hi, hlo, hfield, hn, hbeyond]

/-- The field that was replaced holds the new bits. -/
theorem extractLsb'_putBits_same (f : Frame) {lo n : Nat} (v : BitVec n) (h : lo + n ≤ 96) :
    (putBits f lo v).extractLsb' lo n = v := by
  apply BitVec.eq_of_getLsbD_eq
  intro i hi
  rw [BitVec.getLsbD_extractLsb', getLsbD_putBits f lo v (by omega)]
  simp [hi]

/-- A field apart from the one that was replaced is unchanged. -/
theorem extractLsb'_putBits_other (f : Frame) {lo n pos len : Nat} (v : BitVec n) (h : pos + len ≤ 96)
    (hapart : pos + len ≤ lo ∨ lo + n ≤ pos) :
    (putBits f lo v).extractLsb' pos len = f.extractLsb' pos len := by
  apply BitVec.eq_of_getLsbD_eq
  intro i hi
  rw [BitVec.getLsbD_extractLsb', BitVec.getLsbD_extractLsb', getLsbD_putBits f lo v (by omega), if_neg (by omega)]

/-- Replacing bits of a mask changes nothing outside the mask. -/
theorem putBits_and_not {m : Frame} (f : Frame) {lo n : Nat} (v : BitVec n)
    (hm : m.extractLsb' lo n = BitVec.allOnes n) : putBits f lo v &&& ~~~m = f &&& ~~~m := by
  apply BitVec.eq_of_getLsbD_eq
  intro i hi
  rw [BitVec.getLsbD_and, BitVec.getLsbD_and, getLsbD_putBits f lo v hi]
  split
  · next hin =>
    have hbit := congrArg (BitVec.getLsbD · (i - lo)) hm
    have : i - lo < n := by omega
    simp [this, hin] at hbit
    simp [hbit]
  · rfl

/-- `PlacesRow k f f' i`: the frame `f'` is `f` with some bits written into its part `k`, and `i` is the row that these
bits select (30_encoding.md R71, R77 to R79). -/
inductive PlacesRow : Selector → (f f' : Frame) → Instr → Prop where
  | framing (f : Frame) (cmd lf : Byte) :
      PlacesRow .framing f (putBits (putBits f 0 cmd) 88 lf) (decodeFraming cmd lf)
  | modeSel (f : Frame) (mc : Nibble) (dpf : Code3) :
      PlacesRow .modeSel f (placeMode f mc dpf) (decodeMode mc dpf)
  | digitLane (f : Frame) (lane : Fin 5) (b : Byte) :
      PlacesRow (.digitLane lane) f (placeDigit f lane b) (decodeDigit lane b)
  | sign (f : Frame) (negative : Bool) :
      PlacesRow .sign f (putBits f 36 (BitVec.ofBool negative)) (decodeSign negative)

theorem decodeFraming_of_invalid {cmd lf : Byte} (h : isInvalidFraming cmd lf = true) :
    decodeFraming cmd lf = .frameInvalid cmd lf := by
  have hcheck : (cmd == cmdByte && lf == lfByte) = false := by rwa [isInvalidFraming, Bool.not_eq_true'] at h
  rw [decodeFraming, hcheck]
  rfl

theorem decodeDigit_of_blank {b : Byte} (lane : Fin 5) (h : isBlankByte b = true) :
    decodeDigit lane b = .blank lane b := by
  have hclass : (b.toNat < 0x30 ∨ 0x39 < b.toNat) ∧ b.toNat ≠ 0x3E := by
    revert b; decide
  unfold decodeDigit
  split
  case h_12 => rfl
  all_goals omega

/-- Putting a well-formed row in place writes bits that select this row. -/
theorem place_placesRow {i : Instr} {k : Selector} (f : Frame) (hwf : WellFormed i = true)
    (hk : i.format = .selector k) : PlacesRow k f (place i f) i := by
  cases i
  all_goals cases hk
  case frameValid => exact .framing f 0x89 0x0A
  case frameInvalid cmd lf =>
    have hrow := PlacesRow.framing f cmd lf
    rwa [decodeFraming_of_invalid hwf] at hrow
  case signPos => exact .sign f false
  case signNeg => exact .sign f true
  case blank lane b =>
    have hrow := PlacesRow.digitLane f lane b
    rwa [decodeDigit_of_blank lane hwf] at hrow
  case digit0 | digit1 | digit2 | digit3 | digit4 | digit5 | digit6 | digit7 | digit8 | digit9 | overflow =>
    exact .digitLane f _ _
  all_goals exact .modeSel f _ _

/-- A row put in place is the row that its part selects (30_encoding.md R71). -/
theorem PlacesRow.select_eq {k : Selector} {f f' : Frame} {i : Instr} (h : PlacesRow k f f' i) : select k f' = i := by
  cases h
  case framing cmd lf =>
    have hcmd : frameByte (putBits (putBits f 0 cmd) 88 lf) 0 = cmd := by
      rw [frameByte, extractLsb'_putBits_other _ _ (by omega) (by omega), extractLsb'_putBits_same _ _ (by omega)]
    have hlf : frameByte (putBits (putBits f 0 cmd) 88 lf) 11 = lf := extractLsb'_putBits_same _ _ (by omega)
    rw [select, hcmd, hlf]
  case modeSel mc dpf =>
    have hmode : modeField (placeMode f mc dpf) = mc := by
      rw [modeField, placeMode, extractLsb'_putBits_other _ _ (by omega) (by omega),
        extractLsb'_putBits_same _ _ (by omega)]
    have hdpf : dpField (placeMode f mc dpf) = dpf := extractLsb'_putBits_same _ _ (by omega)
    rw [select, hmode, hdpf]
  case digitLane lane b =>
    have hbyte : digitByte (placeDigit f lane b) lane = b := extractLsb'_putBits_same _ _ (by omega)
    rw [select, hbyte]
  case sign negative =>
    have hsign : signField (putBits f 36 (BitVec.ofBool negative)) = negative := by
      rw [signField_eq_extractLsb', extractLsb'_putBits_same _ _ (by omega)]
      simp
    rw [select, hsign]

/-- Putting a row in place changes no bit outside its part (30_encoding.md R72). -/
theorem PlacesRow.and_not_selectorMask {k : Selector} {f f' : Frame} {i : Instr} (h : PlacesRow k f f' i) :
    f' &&& ~~~(selectorMask k) = f &&& ~~~(selectorMask k) := by
  cases h
  case framing => rw [putBits_and_not _ _ (by decide), putBits_and_not _ _ (by decide)]
  case modeSel => rw [placeMode, putBits_and_not _ _ (by decide), putBits_and_not _ _ (by decide)]
  case digitLane lane b => exact putBits_and_not _ _ (selectorMask_digitLane_extractLsb' lane)
  case sign => rw [putBits_and_not _ _ (by decide)]

/-! ## The obligations -/

/-- Settles O40: the row is the one that its part of the placed frame selects, and the placed frame agrees with the port
on every other part. -/
theorem selectorRowIsALoad : Obligations.SelectorRowIsALoad := by
  intro i k s hwf hk
  have hplaced := place_placesRow s.pins.frame hwf hk
  refine ⟨s.loadFrame (place i s.pins.frame), ?_, rfl⟩
  calc exec i s = exec (select k (place i s.pins.frame)) s := by rw [hplaced.select_eq]
    _ = .next (s.loadPart k (place i s.pins.frame)) := exec_select _ _ s
    _ = .next (s.loadFrame (place i s.pins.frame)) := by rw [loadPart_eq_loadFrame hplaced.and_not_selectorMask]

/-- Settles O42: each row that the frame at the port selects is the LOAD of this frame, and the edge samples that
LOAD. -/
theorem loadStepRunsEverySelectedRow : Obligations.LoadStepRunsEverySelectedRow := by
  intro s k hstable hrst hload
  refine ⟨s.loadFrame s.pins.frame, ?_, ?_⟩
  · rw [exec_select, loadPart_eq_loadFrame rfl]
  · have hsampled : s.sampledRegister = decodeFrame s.pins.frame := by simp [State.sampledRegister, hrst, hload]
    rw [step_eq_of_stable hstable, hsampled]
    rfl

/-- Settles O9: LOAD does not depend on what the register held. -/
theorem loadTwiceIsLoadOnce : Obligations.LoadTwiceIsLoadOnce :=
  fun f s => ⟨s.loadFrame f, rfl, exec_setReg (i := .load f) nofun s (decodeFrame f)⟩

end Sys2Proof.Machine
end

section
/-! PROOFS. The family 30_encoding.md: the decoder against the encoder, the rows that a part of a frame selects, the
reading word, and the reserved codes. -/

namespace Sys2Proof.Machine

open Sys2Proof.Claims

/-! ## The layouts, read back -/

/-- A control byte below 4 and a frame are read back (30_encoding.md R75, log 6). -/
theorem decode_controlBytes {c : Byte} (f : Frame) (hc : c.toNat < 4) :
    decode .ctrl (controlBytes c f) = .ok (decodeControl (c.getLsbD 1) (c.getLsbD 0) f) := by
  simp only [controlBytes, decode, if_pos hc, frameOfBytes_bytesOfFrame]

/-- The two fields of a mode row are read back from their places in `F[1]` and `F[2]` (30_encoding.md R70, R77). -/
theorem decode_modeBytes (mc : Nibble) (dpf : Code3) :
    decode (.selector .modeSel) (modeBytes mc dpf) = .ok (decodeMode mc dpf) := by
  have hmode : (mc.setWidth 8 <<< 3).extractLsb' 3 4 = mc := by revert mc; decide
  have hdpf : (dpf.setWidth 8 <<< 3).extractLsb' 3 3 = dpf := by revert dpf; decide
  simp only [modeBytes, decode, hmode, hdpf]

/-! ## The rows of a part -/

theorem isBlankByte_of_toNat {b : Byte} (hdigit : b.toNat < 0x30 ∨ 0x39 < b.toNat) (hovf : b.toNat ≠ 0x3E) :
    isBlankByte b = true := by
  revert b; decide

theorem isInvalidFraming_of_check {cmd lf : Byte} (h : framingCheck cmd lf = false) :
    isInvalidFraming cmd lf = true := by
  rwa [isInvalidFraming, Bool.not_eq_true']

/-- The row that the bits written into a part select is a well-formed row of this part, and these bits are the ones that
putting it in place writes: the converse of `place_placesRow`. -/
theorem PlacesRow.wellFormed_format_place {k : Selector} {f f' : Frame} {i : Instr} (h : PlacesRow k f f' i) :
    WellFormed i = true ∧ i.format = .selector k ∧ place i f = f' := by
  cases h
  case framing cmd lf =>
    cases hcheck : framingCheck cmd lf
    case false =>
      have hinvalid := isInvalidFraming_of_check hcheck
      rw [decodeFraming_of_invalid hinvalid]
      exact ⟨hinvalid, rfl, rfl⟩
    case true =>
      obtain ⟨rfl, rfl⟩ : cmd = cmdByte ∧ lf = lfByte := by simpa [framingCheck] using hcheck
      exact ⟨rfl, rfl, rfl⟩
  case modeSel mc dpf =>
    obtain ⟨⟨n, hn⟩⟩ := mc
    interval_cases n
    all_goals exact ⟨rfl, rfl, rfl⟩
  case digitLane lane b =>
    unfold decodeDigit
    split
    case h_12 =>
      have hblank : isBlankByte b = true := by
        simp only [imp_false] at *
        exact isBlankByte_of_toNat (by omega) (by omega)
      exact ⟨hblank, rfl, rfl⟩
    all_goals
      next hb =>
        obtain ⟨-, rfl⟩ := BitVec.toNat_eq_nat.mp hb
        exact ⟨rfl, rfl, rfl⟩
  case sign negative => cases negative <;> exact ⟨rfl, rfl, rfl⟩

/-- The row that a part selects is the one whose bits stand there already (30_encoding.md R77 to R79). -/
theorem placesRow_select (k : Selector) (f : Frame) : PlacesRow k f f (select k f) := by
  cases k
  case framing =>
    have hrow := PlacesRow.framing f (frameByte f 0) (frameByte f 11)
    rwa [frameByte_eq, putBits_extractLsb', frameByte_eq, putBits_extractLsb'] at hrow
  case modeSel =>
    have hrow := PlacesRow.modeSel f (modeField f) (dpField f)
    rwa [placeMode, modeField, putBits_extractLsb', dpField, putBits_extractLsb'] at hrow
  case digitLane lane =>
    have hrow := PlacesRow.digitLane f lane (digitByte f lane)
    rwa [placeDigit, digitByte, frameByte_eq, putBits_extractLsb'] at hrow
  case sign =>
    have hbit : BitVec.ofBool (signField f) = f.extractLsb' 36 1 := by
      rw [signField_eq_extractLsb']
      generalize f.extractLsb' 36 1 = b
      revert b; decide
    have hrow := PlacesRow.sign f (signField f)
    rwa [hbit, putBits_extractLsb'] at hrow

/-! ## What the decoder accepts -/

/-- The list is one that the layout of the format has (log 6): its number of bytes, the control byte below 4. -/
def FitsLayout (fmt : Format) (bs : List Byte) : Prop :=
  bs.length = fmt.length ∧ (fmt = .ctrl → (bs.headD 0).toNat < 4)

theorem decodeControl_wellFormed_format (rst load : Bool) (f : Frame) :
    WellFormed (decodeControl rst load f) = true ∧ (decodeControl rst load f).format = .ctrl := by
  cases rst <;> cases load <;> exact ⟨rfl, rfl⟩

/-- A list that fits a selector's layout decodes to a row that some bits select, whichever frame they are written in. -/
theorem decode_selector_of_length {k : Selector} {bs : List Byte} (f : Frame)
    (h : bs.length = (Format.selector k).length) :
    ∃ i f', decode (.selector k) bs = .ok i ∧ PlacesRow k f f' i := by
  cases k
  case framing => match bs, h with | [cmd, lf], _ => exact ⟨_, _, rfl, .framing f cmd lf⟩
  case modeSel => match bs, h with | [_, _], _ => exact ⟨_, _, rfl, .modeSel f _ _⟩
  case digitLane lane => match bs, h with | [b], _ => exact ⟨_, _, rfl, .digitLane f lane b⟩
  case sign => match bs, h with | [_], _ => exact ⟨_, _, rfl, .sign f _⟩

/-- A list that fits the layout of a format decodes to a well-formed row of it (30_encoding.md R75 to R79). -/
theorem decode_of_fitsLayout {fmt : Format} {bs : List Byte} (h : FitsLayout fmt bs) :
    ∃ i, decode fmt bs = .ok i ∧ WellFormed i = true ∧ i.format = fmt := by
  obtain ⟨hlength, hcontrol⟩ := h
  cases fmt
  case ctrl =>
    match bs, hlength with
    | c :: fs, hlength =>
      obtain ⟨f, hf⟩ := frameOfBytes_of_length (Nat.succ.inj hlength)
      have hc : c.toNat < 4 := hcontrol rfl
      exact ⟨decodeControl (c.getLsbD 1) (c.getLsbD 0) f, by simp only [decode, if_pos hc, hf],
        decodeControl_wellFormed_format _ _ _⟩
  case selector k =>
    obtain ⟨i, f', hdecode, hrow⟩ := decode_selector_of_length 0 hlength
    obtain ⟨hwf, hfmt, -⟩ := hrow.wellFormed_format_place
    exact ⟨i, hdecode, hwf, hfmt⟩

/-- The decoder accepts no other list. -/
theorem fitsLayout_of_decode {fmt : Format} {bs : List Byte} {i : Instr} (h : decode fmt bs = .ok i) :
    FitsLayout fmt bs := by
  unfold decode at h
  split at h
  case h_2 c fs =>
    split at h
    case isTrue hc =>
      split at h
      case h_1 f hf => exact ⟨congrArg (· + 1) (length_of_frameOfBytes hf), fun _ => hc⟩
      case h_2 => cases h
    case isFalse => cases h
  case h_1 | h_7 => cases h
  all_goals exact ⟨rfl, nofun⟩

/-! ## The parts of a frame that are read -/

/-- The bits that R70 gives a field (30_encoding.md R70, R72). -/
def usedMask : Frame := 0xFF00FFFFFFFFFF10003878FF#96

theorem selectorMask_and_usedMask (k : Selector) : selectorMask k &&& usedMask = selectorMask k := by
  have hall : ∀ k ∈ selectors, selectorMask k &&& usedMask = selectorMask k := by decide
  exact hall k (mem_selectors k)

/-- Frames that agree in every bit that has a field agree on every part. -/
theorem and_selectorMask_eq_of_usedMask {f g : Frame} (h : f &&& usedMask = g &&& usedMask) (k : Selector) :
    f &&& selectorMask k = g &&& selectorMask k := by
  have hpart (e : Frame) : e &&& selectorMask k = e &&& usedMask &&& selectorMask k := by
    rw [BitVec.and_assoc, BitVec.and_comm usedMask, selectorMask_and_usedMask]
  rw [hpart f, hpart g, h]

/-- `DECODE` reads nothing but the four kinds of part (43_control.md R180). -/
theorem decodeFrame_eq_of_and_selectorMask_eq {f g : Frame} (h : ∀ k, f &&& selectorMask k = g &&& selectorMask k) :
    decodeFrame f = decodeFrame g := by
  have hfok := frameOk_eq_of_and_eq (h .framing)
  have hmode := modeField_eq_of_and_eq (h .modeSel)
  have hdpf := dpField_eq_of_and_eq (h .modeSel)
  have hsign := signField_eq_of_and_eq (h .sign)
  have hbyte (lane : Fin 5) := digitByte_eq_of_and_eq (h (.digitLane lane))
  simp only [decodeFrame, modeCode, dpr, signBit, laneCode, hfok, hmode, hdpf, hsign, hbyte]

/-! ## The ports as a list of bytes -/

theorem controlByte_toNat (c : Inputs) : (controlByte c).toNat < 4 := by
  unfold controlByte
  cases c.rst <;> cases c.load <;> decide

theorem controlByte_levels (c : Inputs) :
    (controlByte c).getLsbD 1 = c.rst ∧ (controlByte c).getLsbD 0 = c.load := by
  unfold controlByte
  cases c.rst <;> cases c.load <;> decide

/-- The control byte and the frame at the ports decode to the operation that the edge samples (30_encoding.md R75). -/
theorem decode_ports (c : Inputs) : decode .ctrl (controlByte c :: bytesOfFrame c.frame) = .ok c.operation := by
  obtain ⟨hrst, hload⟩ := controlByte_levels c
  have hdecode := decode_controlBytes c.frame (controlByte_toNat c)
  rwa [hrst, hload] at hdecode

/-! ## The reading word and its observations -/

/-- The state bits of the reading word give the register back (30_encoding.md R80). -/
theorem ofBits_reading (s : State) : Register.ofBits (s.reading.extractLsb' 0 44) = s.reg := by
  rw [State.reading, pack_extractLsb', Register.ofBits_bits]

/-- The reserved bits of the reading word are 0 (30_encoding.md R80). -/
theorem reading_reserved (s : State) : s.reading.extractLsb' 44 4 = 0 := by
  rw [State.reading, pack, BitVec.cast_eq, BitVec.extractLsb'_append_eq_left]
  rfl

theorem render_of_not_rdy {r : Register} (hrdy : r.rdy = false) (hp : Config.HostParams) (o : RenderOptions) :
    r.render hp o = .refused .noReading := by
  simp [Register.render, hrdy]

theorem render_of_not_fok {r : Register} (hrdy : r.rdy = true) (hfok : r.fok = false) (hp : Config.HostParams)
    (o : RenderOptions) : r.render hp o = .refused .invalidFrame := by
  simp [Register.render, hrdy, hfok]

/-- A rendering is given of a register that shows a reading, and of no other (44_host_render.md R201). -/
theorem render_of_shows (r : Register) (hp : Config.HostParams) (o : RenderOptions) :
    (r.shows = true ∧ ∃ t, r.render hp o = .next t) ∨ (r.shows = false ∧ ∃ e, r.render hp o = .refused e) := by
  cases hrdy : r.rdy
  case false => exact .inr ⟨by simp [Register.shows, hrdy], _, render_of_not_rdy hrdy hp o⟩
  case true =>
    cases hfok : r.fok
    case false => exact .inr ⟨by simp [Register.shows, hfok], _, render_of_not_fok hrdy hfok hp o⟩
    case true =>
      rcases render_cases hrdy hfok hp o with ⟨hres, hrender⟩ | ⟨hres, hrender⟩
      · exact .inr ⟨by simp [Register.shows, hres], _, hrender⟩
      · exact .inl ⟨by simp [Register.shows, hrdy, hfok, hres], hrender⟩

/-- The results with an indication are refused one of a register with a reserved code; the others, the errors 1 to 7,
do not look at it (60_exceptions.md R224). -/
theorem indication_of_reserved {r : Register} (hres : r.hasReservedCode = true) (x : HostResult) :
    x.indication r = if 1 ≤ x.code ∧ x.code ≤ 7 then .next none else .refused .reservedCode := by
  cases x
  case none => exact whenObservable_of_reserved _ hres
  case error e =>
    cases e
    case invalidFrameError | modeNotSet | unitNotSet => exact whenObservable_of_reserved _ hres
    all_goals rfl

/-- A cycle that left `RDY = 1` and a reserved code has neither a result nor a report (30_encoding.md R84). -/
theorem cycle_of_reserved {r : Register} (hres : r.hasReservedCode = true) (hrdy : r.rdy = true)
    (hp : Config.HostParams) (o : RenderOptions) (f : Frame) :
    cycleResult (.ok f) r = .refused .reservedCode ∧ cycleReport hp o (.ok f) r = .refused .reservedCode := by
  refine ⟨by simp [cycleResult, hrdy, hres], ?_⟩
  cases hfok : r.fok
  case false => simp [cycleReport, hrdy, hfok, hres]
  case true =>
    have hrender : r.render hp o = .refused .reservedCode := by
      rcases render_cases hrdy hfok hp o with ⟨-, h⟩ | ⟨h, -⟩
      · exact h
      · simp [hres] at h
    simp [cycleReport, hfok, hrender]

/-- A cycle that left `RDY = 0` has neither a result nor a report (log 12). -/
theorem cycle_of_not_rdy {r : Register} (hrdy : r.rdy = false) (hp : Config.HostParams) (o : RenderOptions)
    (f : Frame) :
    cycleResult (.ok f) r = .refused .noReading ∧ cycleReport hp o (.ok f) r = .refused .noReading := by
  simp [cycleResult, cycleReport, hrdy, render_of_not_rdy hrdy]

/-! ## The obligations -/

/-- Settles O33: each layout is read back, and the bits of a well-formed row select this row. -/
theorem decodeOfEncodeIsTheInstruction : Obligations.DecodeOfEncodeIsTheInstruction := by
  intro i hwf
  cases i
  case hold | load | reset | resetLoad => exact decode_controlBytes _ (by decide)
  case frameInvalid cmd lf => exact congrArg Except.ok (decodeFraming_of_invalid hwf)
  case blank lane b => exact congrArg Except.ok (decodeDigit_of_blank lane hwf)
  case frameValid | signPos | signNeg => rfl
  case digit0 | digit1 | digit2 | digit3 | digit4 | digit5 | digit6 | digit7 | digit8 | digit9 | overflow => rfl
  all_goals exact decode_modeBytes _ _

/-- Settles O18: the used bits hold every part, and `DECODE` reads nothing else. -/
theorem unusedBitsDoNotMatter : Obligations.UnusedBitsDoNotMatter := by
  intro f g s h
  have hdecode : decodeFrame f = decodeFrame g :=
    decodeFrame_eq_of_and_selectorMask_eq (and_selectorMask_eq_of_usedMask h)
  exact ⟨s.loadFrame f, rfl, by rw [State.loadFrame, hdecode]; rfl⟩

/-- Settles O34: the bits put in place select the row, and lie inside the mask of its part. -/
theorem placedSelectorIsReadBack : Obligations.PlacedSelectorIsReadBack := by
  intro i k f hwf hk
  have hplaced := place_placesRow f hwf hk
  exact ⟨hplaced.select_eq, hplaced.and_not_selectorMask⟩

/-- Settles O35: the bits that select the row stand in the frame already. -/
theorem selectedRowHoldsItsBits : Obligations.SelectedRowHoldsItsBits :=
  fun k f => (placesRow_select k f).wellFormed_format_place

/-- Settles O36: the lists that fit the format's layout are the ones that decode, to a well-formed row of it. -/
theorem decoderAcceptsExactlyItsFormat : Obligations.DecoderAcceptsExactlyItsFormat := by
  refine fun fmt bs => ⟨fun i hi => ?_, fun ⟨i, hi⟩ => fitsLayout_of_decode hi, fun hfits => ?_⟩
  · obtain ⟨j, hj, hwf, hfmt⟩ := decode_of_fitsLayout (fitsLayout_of_decode hi)
    cases hj.symm.trans hi
    exact ⟨hwf, hfmt⟩
  · obtain ⟨i, hi, -⟩ := decode_of_fitsLayout hfits
    exact ⟨i, hi⟩

/-- Settles O38: each field of the register is a slice of the state bits, which are the reading word's low 44. -/
theorem readingWordLayout : Obligations.ReadingWordLayout := by
  intro s
  have hreserved := reading_reserved s
  rw [← ofBits_reading s]
  simp [Register.ofBits, BitVec.extractLsb'_extractLsb'_of_le, hreserved]

/-- Settles O58: `observe` refuses the reserved codes and nothing else, and each observation is one of `observe` or
looks at `RDY` and `FOK` first. -/
theorem reservedCodesAreNeverObserved : Obligations.ReservedCodesAreNeverObserved := by
  intro r hp o f
  refine ⟨?_, ?_, fun hres => ⟨?_, indication_of_reserved hres, fun hrdy => cycle_of_reserved hres hrdy hp o f⟩,
    fun hrdy => cycle_of_not_rdy hrdy hp o f, ?_⟩
  · rcases observe_cases r with ⟨hres, hobs⟩ | ⟨hres, d, hobs⟩ <;> simp [hres, hobs]
  · rcases observe_cases r with ⟨hres, hobs⟩ | ⟨hres, d, hobs⟩ <;> simp [hres, hobs]
  · rcases render_of_shows r hp o with ⟨hshows, -⟩ | ⟨-, hrefused⟩
    · simp [Register.shows, hres] at hshows
    · exact hrefused
  · rcases render_of_shows r hp o with ⟨hshows, hgiven⟩ | ⟨hshows, e, hrefused⟩
    · simp [hshows, hgiven]
    · simp [hshows, hrefused]

/-- Settles O41: the instruction is the operation that the edge samples, and a stable edge performs it. -/
theorem stepRunsTheDecodedOperation : Obligations.StepRunsTheDecodedOperation := by
  intro s i hstable hdecode _
  cases (decode_ports s.pins).symm.trans hdecode
  exact ⟨_, exec_operation s, step_eq_of_stable hstable⟩

/-- Settles O37: the decoder evaluates on the five lists. -/
theorem wordsFromTheEncodingTables : Obligations.WordsFromTheEncodingTables := ⟨rfl, rfl, rfl, rfl, rfl⟩

end Sys2Proof.Machine
end

section
/-! PROOFS. The family 40_validate.md: `FOK` is the check of the two markers, and bytes 1 to 10 give every other field of
a loaded register, whether or not the frame passes the check. -/

namespace Sys2Proof.Machine

open Sys2Proof.Claims

/-! ## The framing check -/

/-- The framing check passes for the two markers alone (40_validate.md R100). -/
theorem frameOk_iff (f : Frame) : frameOk f = true ↔ frameByte f 0 = cmdByte ∧ frameByte f 11 = lfByte := by
  rw [frameOk, framingCheck, Bool.and_eq_true, beq_iff_eq, beq_iff_eq]

/-- The framing check reads bytes 0 and 11 alone (40_validate.md R102). -/
theorem frameOk_eq_of_markers_eq {f g : Frame} (hcmd : frameByte f 0 = frameByte g 0)
    (hlf : frameByte f 11 = frameByte g 11) : frameOk f = frameOk g := by
  rw [frameOk, hcmd, hlf, frameOk]

/-- The markers of the row FRAME_INVALID fail the check: the converse of `isInvalidFraming_of_check`. -/
theorem frameOk_of_invalid {f : Frame} (h : isInvalidFraming (frameByte f 0) (frameByte f 11) = true) :
    frameOk f = false := by
  rwa [isInvalidFraming, Bool.not_eq_true'] at h

/-! ## The bytes between the markers -/

/-- Frames that agree in bytes 1 to 10 load the same register, but for `FOK` (40_validate.md R102). -/
theorem decodeFrame_eq_of_data_eq {f g : Frame} (h : ∀ i, 1 ≤ i → i ≤ 10 → frameByte f i = frameByte g i) :
    decodeFrame f = { decodeFrame g with fok := frameOk f } := by
  have hmode : modeField f = modeField g := by
    rw [modeField_eq_byte, h 1 (by omega) (by omega), modeField_eq_byte]
  have hdpf : dpField f = dpField g := by
    rw [dpField_eq_byte, h 2 (by omega) (by omega), dpField_eq_byte]
  have hsign : signField f = signField g := by
    rw [signField_eq_byte, h 4 (by omega) (by omega), signField_eq_byte]
  have hbyte (lane : Fin 5) : digitByte f lane = digitByte g lane := h (5 + lane.val) (by omega) (by omega)
  simp only [decodeFrame, modeCode, dpr, signBit, laneCode, hmode, hdpf, hsign, hbyte]

/-! ## The report of an invalid frame -/

/-- The report of a cycle that loaded a frame with `FOK = 0`: InvalidFrameError alone, an empty line, and the bytes of
the host's own copy of the frame (44_host_render.md R212, 60_exceptions.md R221, R222). -/
theorem cycleReport_of_not_fok {r : Register} (hrdy : r.rdy = true) (hfok : r.fok = false)
    (hres : r.hasReservedCode = false) (hp : Config.HostParams) (o : RenderOptions) (f : Frame) :
    cycleReport hp o (.ok f) r = .next ⟨[], [.invalidFrameError], hp.hexFormat (bytesOfFrame f)⟩ := by
  simp [cycleReport, hrdy, hfok, hres]

/-! ## The obligations -/

/-- Settles O12: the check reads the markers alone, and the bytes between them give every field but `FOK`. -/
theorem framingAndReadingAreIndependent : Obligations.FramingAndReadingAreIndependent := by
  refine ⟨fun f g s hcmd hlf => ⟨s.loadFrame f, s.loadFrame g, rfl, rfl, frameOk_eq_of_markers_eq hcmd hlf⟩,
    fun f g s hdata => ⟨s.loadFrame f, s.loadFrame g, rfl, rfl, ?_⟩⟩
  rw [State.loadFrame_reg, State.loadFrame_reg, decodeFrame_eq_of_data_eq hdata]
  exact ⟨⟨rfl, rfl, rfl, rfl, rfl, rfl, rfl, rfl⟩, rfl, fun _ => rfl⟩

/-- Settles O28: the frame is loaded as its bytes 1 to 10 say, with the check failed, and a LOAD writes no reserved code
that would refuse the report. -/
theorem invalidFrameIsLoaded : Obligations.InvalidFrameIsLoaded := by
  intro f s hinvalid
  have hfok : (decodeFrame f).fok = false := frameOk_of_invalid hinvalid
  refine ⟨s.loadFrame f, rfl, rfl, hfok, fun g hdata _ => ?_, fun hp o => ⟨?_, ?_⟩⟩
  · rw [State.loadFrame_reg, decodeFrame_eq_of_data_eq fun i hlow hhigh => (hdata i hlow hhigh).symm,
      frameOk_of_invalid hinvalid]
  · exact render_of_not_fok rfl hfok hp o
  · exact cycleReport_of_not_fok rfl hfok (decodeFrame_hasReservedCode f) hp o f

/-- Settles O11: LOAD writes the framing check into `FOK`. -/
theorem framingCheckNeedsBothMarkers : Obligations.FramingCheckNeedsBothMarkers :=
  fun f s => ⟨s.loadFrame f, rfl, frameOk_iff f⟩

end Sys2Proof.Machine
end

section
/-! PROOFS. The family 41_field_extract.md: each extractor as the shift and mask of its byte that the rules write, and the
fields of a loaded register read through it. -/

namespace Sys2Proof.Machine

/-! ## A field of a byte by shift and mask -/

/-- The decimal-position field of its byte (41_field_extract.md R110). -/
theorem positionBits_eq_shift_and (b : Byte) : (b.extractLsb' 3 3).toNat = ((b >>> 3) &&& 0x7#8).toNat := by
  revert b; decide

/-- The mode field of its byte (41_field_extract.md R112). -/
theorem modeBits_eq_shift_and (b : Byte) : (b.extractLsb' 3 4).setWidth 8 = (b >>> 3) &&& 0xF#8 := by
  revert b; decide

/-- The mask 0x78 keeps the mode field, in its place (41_field_extract.md R113). -/
theorem and_modeMask (b : Byte) : b &&& 0x78#8 = (b.extractLsb' 3 4).setWidth 8 <<< 3 := by
  revert b; decide

/-- The mode field is read back from its place (30_encoding.md R70). -/
theorem modeBits_shiftLeft (c : Nibble) : (c.setWidth 8 <<< 3).extractLsb' 3 4 = c := by
  revert c; decide

/-- The bytes that are 0 under the mask 0x78 (41_field_extract.md R113). -/
theorem and_modeMask_eq_zero_iff (x : Byte) :
    x &&& 0x78#8 = 0#8 ↔ x ≤ 0x07#8 ∨ (0x80#8 ≤ x ∧ x ≤ 0x87#8) := by
  revert x; decide

/-- The sign flag of its byte (41_field_extract.md R115). -/
theorem signBit_iff_and (b : Byte) : b.getLsbD 4 = true ↔ b &&& 0x10#8 ≠ 0 := by
  revert b; decide

/-! ## The bytes that select a mode code -/

/-- A byte selects the code that stands under the mask 0x78. -/
theorem modeBits_eq_iff_and (b : Byte) (c : Nibble) :
    b.extractLsb' 3 4 = c ↔ b &&& 0x78#8 = c.setWidth 8 <<< 3 := by
  rw [and_modeMask]
  constructor
  · rintro rfl
    rfl
  · intro hplaced
    rw [← modeBits_shiftLeft (b.extractLsb' 3 4), hplaced, modeBits_shiftLeft]

/-- A byte selects a code exactly where it is the code in its place and any bits outside the mask 0x78. -/
theorem modeBits_eq_iff_or (b : Byte) (c : Nibble) :
    b.extractLsb' 3 4 = c ↔
      ∃ x : Byte, (x ≤ 0x07#8 ∨ (0x80#8 ≤ x ∧ x ≤ 0x87#8)) ∧ b = (c.setWidth 8 <<< 3) ||| x := by
  simp only [← and_modeMask_eq_zero_iff]
  rw [modeBits_eq_iff_and]
  constructor
  · intro hplaced
    refine ⟨b &&& ~~~0x78#8, ?_, ?_⟩
    · simp [BitVec.and_assoc]
    · rw [← hplaced, ← BitVec.and_or_distrib_left]
      exact BitVec.and_allOnes.symm
  · rintro ⟨x, houtside, rfl⟩
    have hcode : c.setWidth 8 <<< 3 &&& 0x78#8 = c.setWidth 8 <<< 3 := by rw [and_modeMask, modeBits_shiftLeft]
    rw [BitVec.and_or_distrib_right, houtside, hcode, BitVec.or_zero]

/-! ## The extractors on bytes -/

theorem dpr_toNat (f : Frame) : (dpr f).toNat = ((frameByte f 2 >>> 3) &&& 0x7#8).toNat + 1 := by
  rw [dpr, rawPosition_toNat, dpField_eq_byte, positionBits_eq_shift_and]

theorem modeCode_eq_byte (f : Frame) : modeCode f = (frameByte f 1).extractLsb' 3 4 := modeField_eq_byte f

theorem signBit_iff (f : Frame) : signBit f = true ↔ frameByte f 4 &&& 0x10#8 ≠ 0 := by
  rw [signBit, signField_eq_byte, signBit_iff_and]

theorem laneCode_eq_byte (f : Frame) (lane : Fin 5) : laneCode f lane = dcode (frameByte f (5 + lane.val)) := rfl

/-! ## The classes of a digit byte -/

theorem dcode_toNat_of_digit {b : Byte} (h : 0x30 ≤ b.toNat ∧ b.toNat ≤ 0x39) :
    (dcode b).toNat = b.toNat - 0x30 := by
  rw [dcode_toNat, if_pos h]

theorem dcode_of_overflow {b : Byte} (h : b.toNat = 0x3E) : dcode b = overflowCode := by
  obtain ⟨-, rfl⟩ := BitVec.toNat_eq_nat.mp h
  rfl

theorem dcode_of_blank {b : Byte} (hdigit : ¬(0x30 ≤ b.toNat ∧ b.toNat ≤ 0x39)) (hovf : b.toNat ≠ 0x3E) :
    dcode b = blankCode := by
  apply BitVec.eq_of_toNat_eq
  rw [dcode_toNat, if_neg hdigit, if_neg hovf]
  rfl

/-! ## The obligations -/

/-- Settles O13: LOAD writes the raw position, the field of byte 2 plus one. -/
theorem rawPositionIsTheFieldPlusOne : Obligations.RawPositionIsTheFieldPlusOne :=
  fun f s => ⟨s.loadFrame f, rfl, dpr_toNat f, dpr_range f⟩

/-- Settles O14: LOAD writes the mode field of byte 1, which both forms of R113 fix. -/
theorem modeCodeIsItsField : Obligations.ModeCodeIsItsField := by
  intro f s
  refine ⟨s.loadFrame f, rfl, ?_⟩
  rw [State.loadFrame_reg, decodeFrame_mode, modeCode_eq_byte]
  exact ⟨modeBits_eq_shift_and _, fun c => ⟨modeBits_eq_iff_and _ c, modeBits_eq_iff_or _ c⟩⟩

/-- Settles O16: every lane of a loaded register holds the code of its byte, by the classes of the byte. -/
theorem digitLanesHoldTheirClass : Obligations.DigitLanesHoldTheirClass := by
  intro f s
  refine ⟨s.loadFrame f, rfl, ?_⟩
  intro lane b
  have hcode : (s.loadFrame f).reg.digit lane = dcode b := decodeFrame_digit f lane
  rw [hcode]
  split_ifs with hdigit hovf
  · exact dcode_toNat_of_digit hdigit
  · exact dcode_of_overflow hovf
  · exact dcode_of_blank hdigit hovf

/-- Settles O17: the code of a lane is a function of the lane's byte, the same for all lanes. -/
theorem lanesAreIndependentAndAlike : Obligations.LanesAreIndependentAndAlike := by
  refine ⟨fun f g s lane lane' hbyte => ⟨s.loadFrame f, s.loadFrame g, rfl, rfl, ?_⟩,
    fun f s => ⟨s.loadFrame f, rfl, rfl, rfl, rfl, rfl, rfl⟩⟩
  rw [State.loadFrame_reg, State.loadFrame_reg, decodeFrame_digit, decodeFrame_digit, laneCode_eq_byte, hbyte,
    laneCode_eq_byte]

/-- Settles O15: LOAD writes the sign flag, which is the bit 0x10 of byte 4. -/
theorem signIsBitFourOfByteFour : Obligations.SignIsBitFourOfByteFour := by
  intro f s
  refine ⟨s.loadFrame f, rfl, signBit_iff f, fun g hbit => ⟨s.loadFrame g, rfl, ?_⟩⟩
  rw [State.loadFrame_reg, State.loadFrame_reg, decodeFrame_sign, decodeFrame_sign, Bool.eq_iff_iff, signBit_iff,
    signBit_iff, hbit]

end Sys2Proof.Machine
end

section
/-! PROOFS. The family 42_mode_table.md: what a row gives of the raw position carried over to the loaded register, the
ends of the adjusted position's range, and what the host prints of a register without a mode or a unit. -/

namespace Sys2Proof.Machine

open Sys2Proof.Claims

/-! ## A row of the table in the register -/

/-- What a row gives of every raw position a frame can hold, 1 to 8: the known flag, the unit, `PFX` and the
adjusted position (42_mode_table.md R140, 41_field_extract.md R110). -/
def RowGives (row : Int → TableRow) (mkn : Bool) (unit : Code3) (pfx : Nat → Code3) (dp : Nat → Nat) : Prop :=
  ∀ p : Nat, 1 ≤ p → p ≤ 8 →
    (row p).mkn = mkn ∧ unitCode (row p).unit = unit ∧ prefixCode (row p).pfx = pfx p ∧ (row p).dp = dp p

/-- The table fields of a loaded register are those of the row that its two fields select (43_control.md R180). -/
theorem decodeFrame_eq_withRow (f : Frame) :
    decodeFrame f = (decodeFrame f).withRow (modeField f) (rawPosition (dpField f))
      (modeTable (modeField f) (rawPosition (dpField f)).toNat) := rfl

/-- A register into which the row of a code is written holds what the row gives: its position is in range, so that the
four bits of `DP` keep it whole. -/
theorem withRow_holdsRow {code : Nibble} {mkn : Bool} {unit : Code3} {pfx : Nat → Code3} {dp : Nat → Nat}
    (hrow : RowGives (modeTable code) mkn unit pfx dp) (r : Register) (dpf : Code3) :
    HoldsRow (r.withRow code (rawPosition dpf) (modeTable code (rawPosition dpf).toNat)) code mkn unit pfx dp
      (dpf.toNat + 1) := by
  have hfield : dpf.toNat < 8 := dpf.isLt
  have hp := rawPosition_toNat dpf
  rw [← hp]
  generalize rawPosition dpf = p at hp ⊢
  obtain ⟨hmkn, hunit, hpfx, hdp⟩ := hrow p.toNat (by omega) (by omega)
  obtain ⟨hd0, hd8⟩ := modeTable_dp_range code (p := p.toNat) (by omega) (by omega)
  have hnat : (modeTable code p.toNat).dp.toNat = dp p.toNat := by omega
  exact ⟨rfl, hmkn, hunit, hunit ▸ unitKnown_iff _, rfl, hpfx, (toNat_ofInt_of_range hd0 hd8).trans hnat,
    hnat ▸ pointShown_iff hd0⟩

/-- The claim on a code of the table follows from what its row gives. -/
theorem tableRowClaim_of_rowGives {code : Nibble} {row : Code3 → Instr} {mkn : Bool} {unit : Code3}
    {pfx : Nat → Code3} {dp : Nat → Nat} (hselect : decodeMode code = row)
    (hrow : RowGives (modeTable code) mkn unit pfx dp) : TableRowClaim code row mkn unit pfx dp := by
  rintro f s rfl
  refine ⟨congrFun hselect (dpField f), s.loadFrame f, rfl, ?_⟩
  rw [State.loadFrame_reg, decodeFrame_eq_withRow]
  exact withRow_holdsRow hrow _ _

/-- A row that gives the same unit and `PFX` for every position, and the position unchanged. -/
theorem rowGives_unchanged (mkn : Bool) (u : MeterUnit) (x : MeterPrefix) :
    RowGives (fun p => ⟨mkn, u, x, p⟩) mkn (unitCode u) (fun _ => prefixCode x) (fun p => p) :=
  fun _ _ _ => ⟨rfl, rfl, rfl, rfl⟩

/-- A row that gives the same unit and `PFX` for every position, and the position minus 1. -/
theorem rowGives_minusOne (mkn : Bool) (u : MeterUnit) (x : MeterPrefix) :
    RowGives (fun p => ⟨mkn, u, x, p - 1⟩) mkn (unitCode u) (fun _ => prefixCode x) (fun p => p - 1) :=
  fun _ hlow _ => ⟨rfl, rfl, rfl, (Int.natCast_pred_of_pos hlow).symm⟩

/-- Capacitance below raw position 4 and from it on (42_mode_table.md R145, R155). -/
theorem rowGives_rowCap :
    RowGives rowCap true 3 (fun p => if p < 4 then 3 else 2) (fun p => if p < 4 then p - 1 else p - 4) := by
  intro p hlow _
  by_cases hnano : p < 4
  · have hrow : rowCap p = ⟨true, .f, .nano, p - 1⟩ := if_pos (by omega)
    have hdp : ((p - 1 : Nat) : Int) = p - 1 := by omega
    simp [hrow, hnano, hdp, unitCode, prefixCode]
  · have hrow : rowCap p = ⟨true, .f, .micro, p - 4⟩ := if_neg (by omega)
    have hdp : ((p - 4 : Nat) : Int) = p - 4 := by omega
    simp [hrow, hnano, hdp, unitCode, prefixCode]

/-- Resistance at raw position 1, at 5 and 6, and at the others (42_mode_table.md R148, R156). -/
theorem rowGives_rowRes :
    RowGives rowRes true 6 (fun p => if p = 1 then 0 else if p = 5 ∨ p = 6 then 5 else 4)
      (fun p => if p = 1 then 2 else if p = 5 ∨ p = 6 then p - 5 else p - 2) := by
  intro p hlow _
  by_cases hone : p = 1
  · subst hone
    exact ⟨rfl, rfl, rfl, rfl⟩
  · by_cases hmega : p = 5 ∨ p = 6
    · have hrow : rowRes p = ⟨true, .ohm, .mega, p - 5⟩ := (if_neg (by omega)).trans (if_pos (by omega))
      have hdp : ((p - 5 : Nat) : Int) = p - 5 := by omega
      simp [hrow, hone, hmega, hdp, unitCode, prefixCode]
    · have hrow : rowRes p = ⟨true, .ohm, .kilo, p - 2⟩ := (if_neg (by omega)).trans (if_neg (by omega))
      have hdp : ((p - 2 : Nat) : Int) = p - 2 := by omega
      simp [hrow, hone, hmega, hdp, unitCode, prefixCode]

/-- The five codes without a row of their own (42_mode_table.md R152). -/
theorem modeTable_of_unknown {mc : Nibble} (h : mc ∈ [0x0#4, 0x1#4, 0x2#4, 0x3#4, 0x7#4]) :
    modeTable mc = rowUnknown := by
  simp only [List.mem_cons, List.not_mem_nil, or_false] at h
  obtain rfl | rfl | rfl | rfl | rfl := h <;> rfl

/-! ## The ends of the adjusted position's range -/

/-- The rows by what they make of the raw position (42_mode_table.md R153). -/
theorem modeTable_dp_cases (mc : Nibble) (p : Int) :
    (mc = 0x9#4 ∧ modeTable mc p = rowCap p) ∨ (mc = 0xC#4 ∧ modeTable mc p = rowRes p) ∨
      (mc ∈ [0x5#4, 0xB#4, 0xE#4, 0xF#4] ∧ (modeTable mc p).dp = p - 1) ∨
      (mc ∉ [0x5#4, 0x9#4, 0xB#4, 0xC#4, 0xE#4, 0xF#4] ∧ (modeTable mc p).dp = p) := by
  have hcode {k : Nat} (h : mc.toNat = k) : mc = BitVec.ofNat 4 k := (BitVec.toNat_eq_nat.mp h).2
  unfold modeTable
  split
  case h_5 h => exact .inl ⟨hcode h, rfl⟩
  case h_8 h => exact .inr (.inl ⟨hcode h, rfl⟩)
  case h_2 h | h_7 h | h_10 h | h_11 h => exact .inr (.inr (.inl ⟨by rw [hcode h]; decide, rfl⟩))
  case h_12 =>
    refine .inr (.inr (.inr ⟨fun hmem => ?_, rfl⟩))
    simp only [List.mem_cons, List.not_mem_nil, or_false] at hmem
    obtain rfl | rfl | rfl | rfl | rfl | rfl := hmem <;> contradiction
  case h_1 h | h_3 h | h_4 h | h_6 h | h_9 h => exact .inr (.inr (.inr ⟨by rw [hcode h]; decide, rfl⟩))

theorem rowCap_dp_eq_zero_iff (p : Int) : (rowCap p).dp = 0 ↔ p = 1 ∨ p = 4 := by
  unfold rowCap; split <;> dsimp only <;> omega

theorem rowRes_dp_eq_zero_iff (p : Int) : (rowRes p).dp = 0 ↔ p = 2 ∨ p = 5 := by
  unfold rowRes; split_ifs <;> dsimp only <;> omega

theorem rowCap_dp_lt_eight {p : Int} (hhigh : p ≤ 8) : (rowCap p).dp < 8 := by
  unfold rowCap; split <;> dsimp only <;> omega

theorem rowRes_dp_lt_eight {p : Int} (hhigh : p ≤ 8) : (rowRes p).dp < 8 := by
  unfold rowRes; split_ifs <;> dsimp only <;> omega

/-- Where the adjusted position is 0 (42_mode_table.md R157). -/
theorem modeTable_dp_eq_zero_iff (mc : Nibble) {p : Int} (hlow : 1 ≤ p) :
    (modeTable mc p).dp = 0 ↔
      (p = 1 ∧ mc ∈ [0x5#4, 0xB#4, 0xE#4, 0xF#4]) ∨ (mc = 0x9#4 ∧ (p = 1 ∨ p = 4)) ∨
        (mc = 0xC#4 ∧ (p = 2 ∨ p = 5)) := by
  rcases modeTable_dp_cases mc p with ⟨rfl, hrow⟩ | ⟨rfl, hrow⟩ | ⟨hmc, hdp⟩ | ⟨hmc, hdp⟩
  · simp [hrow, rowCap_dp_eq_zero_iff]
  · simp [hrow, rowRes_dp_eq_zero_iff]
  · have hcap : mc ≠ 0x9#4 := by rintro rfl; simp at hmc
    have hres : mc ≠ 0xC#4 := by rintro rfl; simp at hmc
    simp only [hdp, hmc, hcap, hres, and_true, false_and, or_false, sub_eq_zero]
  · simp only [List.mem_cons, List.not_mem_nil, not_or] at hmc
    have hpos : p ≠ 0 := by omega
    simp [hdp, hmc, hpos]

/-- Where the adjusted position is 8 (42_mode_table.md R157). -/
theorem modeTable_dp_eq_eight_iff (mc : Nibble) {p : Int} (hhigh : p ≤ 8) :
    (modeTable mc p).dp = 8 ↔ p = 8 ∧ mc ∉ [0x5#4, 0x9#4, 0xB#4, 0xC#4, 0xE#4, 0xF#4] := by
  rcases modeTable_dp_cases mc p with ⟨rfl, hrow⟩ | ⟨rfl, hrow⟩ | ⟨hmc, hdp⟩ | ⟨hmc, hdp⟩
  · simp [hrow, (rowCap_dp_lt_eight hhigh).ne]
  · simp [hrow, (rowRes_dp_lt_eight hhigh).ne]
  · have hlt : p - 1 ≠ 8 := by omega
    have hlisted : mc ∈ [0x5#4, 0x9#4, 0xB#4, 0xC#4, 0xE#4, 0xF#4] := by
      simp only [List.mem_cons] at hmc ⊢
      tauto
    simp only [hdp, hlt, hlisted, not_true, and_false]
  · simp only [hdp, hmc, not_false_eq_true, and_true]

/-! ## A reading without a mode or a unit -/

/-- A reading has the mode and the unit exactly where the register's flags say that they are known
(10_state.md R25, R26). -/
theorem isNone_of_observe {r : Register} {d : DecodedReading} (h : r.observe = .next d) :
    d.mode.isNone = !r.mkn ∧ d.unit.isNone = !r.ukn := by
  unfold Register.observe at h
  split at h
  · cases h
    cases r.mkn <;> cases r.ukn <;> exact ⟨rfl, rfl⟩
  · cases h

/-- The reading of a loaded frame has the mode and the unit exactly where its row of the table has them. -/
theorem isNone_of_load {f : Frame} {s t : State} {d : DecodedReading} {row : Int → TableRow}
    (hrow : modeTable (modeField f) = row) (hexec : exec (.load f) s = .next t) (hobs : t.reg.observe = .next d) :
    d.mode.isNone = !(row (dpr f).toNat).mkn ∧ d.unit.isNone = !unitKnown (row (dpr f).toNat).unit := by
  cases hexec
  subst hrow
  exact isNone_of_observe hobs

/-- The soft diagnostics of a rendering: the parts that are shown and not there (44_host_render.md R204, R206). -/
theorem render_diags (d : DecodedReading) (hp : Config.HostParams) (o : RenderOptions) :
    (d.render hp o).diags =
      (if o.showMode && d.mode.isNone then [HostError.modeNotSet] else []) ++
        (if o.showUnit && d.unit.isNone then [HostError.unitNotSet] else []) := by
  have hmode : (modePart hp o.showMode d.mode).diags =
      if o.showMode && d.mode.isNone then [HostError.modeNotSet] else [] := by
    cases o.showMode <;> cases d.mode <;> rfl
  have hunit : (unitPart hp o.showUnit d.pfx d.unit).diags =
      if o.showUnit && d.unit.isNone then [HostError.unitNotSet] else [] := by
    cases o.showUnit <;> cases d.unit <;> rfl
  rw [← hmode, ← hunit]
  rfl

/-- A line that shows a unit that is not there ends with `?` (44_host_render.md R206). -/
theorem render_getLast?_of_unit_isNone {d : DecodedReading} (h : d.unit.isNone = true) (hp : Config.HostParams)
    (m : Bool) : (d.render hp ⟨m, true⟩).text.getLast? = some '?' := by
  simp [DecodedReading.render, unitPart, Option.isNone_iff_eq_none.mp h]

/-! ## The obligations -/

/-- Settles O19: the four rows give the position unchanged. -/
theorem unchangedPositionRows : Obligations.UnchangedPositionRows :=
  ⟨tableRowClaim_of_rowGives rfl (rowGives_unchanged true .a .milli),
    tableRowClaim_of_rowGives rfl (rowGives_unchanged true .degC .none),
    tableRowClaim_of_rowGives rfl (rowGives_unchanged true .hz .none),
    tableRowClaim_of_rowGives rfl (rowGives_unchanged true .v .milli)⟩

/-- Settles O20: the four rows give the position minus 1, which is not negative since the raw position is not 0. -/
theorem minusOneRows : Obligations.MinusOneRows :=
  ⟨tableRowClaim_of_rowGives rfl (rowGives_minusOne true .a .none),
    tableRowClaim_of_rowGives rfl (rowGives_minusOne true .v .none),
    tableRowClaim_of_rowGives rfl (rowGives_minusOne true .v .none),
    tableRowClaim_of_rowGives rfl (rowGives_minusOne true .v .none)⟩

/-- Settles O21: the two sub-cases of the row. -/
theorem capacitanceRow : Obligations.CapacitanceRow := tableRowClaim_of_rowGives rfl rowGives_rowCap

/-- Settles O22: the three sub-cases of the row. -/
theorem resistanceRow : Obligations.ResistanceRow := tableRowClaim_of_rowGives rfl rowGives_rowRes

/-- Settles O23: the row is a known one with the position unchanged, and without a unit the renderer prints `?`. -/
theorem generatorRow : Obligations.GeneratorRow := by
  refine ⟨tableRowClaim_of_rowGives rfl (rowGives_unchanged true .none .none),
    fun f s t d hp m hmode hexec hobs => ?_⟩
  have hrow : modeTable (modeField f) = rowGen := by rw [hmode]; rfl
  obtain ⟨hm, hu⟩ : d.mode.isNone = false ∧ d.unit.isNone = true := isNone_of_load hrow hexec hobs
  exact ⟨render_getLast?_of_unit_isNone hu hp m, by simp [render_diags, hm, hu]⟩

/-- Settles O24: the five codes share the row of the unknown mode, and the renderer names what it shows without having
it. -/
theorem unknownRows : Obligations.UnknownRows := by
  have hrow := rowGives_unchanged false .none .none
  refine ⟨⟨tableRowClaim_of_rowGives rfl hrow, tableRowClaim_of_rowGives rfl hrow, tableRowClaim_of_rowGives rfl hrow,
    tableRowClaim_of_rowGives rfl hrow, tableRowClaim_of_rowGives rfl hrow⟩,
    fun f s t d hp m u hmode hexec hobs => ?_⟩
  obtain ⟨hm, hu⟩ : d.mode.isNone = true ∧ d.unit.isNone = true :=
    isNone_of_load (modeTable_of_unknown hmode) hexec hobs
  simp [render_diags, hm, hu]

/-- Settles O26: a position of the table is in range, so that `DP` is the table's integer, and the rows say where it is
at an end of the range. -/
theorem positionRangeOfTheTable : Obligations.PositionRangeOfTheTable := by
  intro f s
  refine ⟨s.loadFrame f, rfl, ?_⟩
  obtain ⟨hlow, hhigh⟩ : 1 ≤ ((dpr f).toNat : Int) ∧ ((dpr f).toNat : Int) ≤ 8 := by exact_mod_cast dpr_range f
  obtain ⟨hd0, hd8⟩ := modeTable_dp_range (modeCode f) hlow hhigh
  have hdp : (decodeFrame f).dp.toNat = (modeTable (modeCode f) (dpr f).toNat).dp.toNat := toNat_ofInt_of_range hd0 hd8
  have hint : ((decodeFrame f).dp.toNat : Int) = (modeTable (modeCode f) (dpr f).toNat).dp := by omega
  have hzero := modeTable_dp_eq_zero_iff (modeCode f) hlow
  have height := modeTable_dp_eq_eight_iff (modeCode f) hhigh
  rw [← hint] at hzero height
  rw [State.loadFrame_reg]
  exact ⟨hint, by omega, by exact_mod_cast hzero, by exact_mod_cast height⟩

/-- Settles O27: the row is that of the two fields. -/
theorem tableFieldsDependOnTwoFields : Obligations.TableFieldsDependOnTwoFields := by
  intro f g s hmode hdpf
  refine ⟨s.loadFrame f, s.loadFrame g, rfl, rfl, ?_⟩
  rw [State.loadFrame_reg, State.loadFrame_reg, decodeFrame_eq_withRow f, decodeFrame_eq_withRow g, hmode, hdpf]
  exact ⟨rfl, rfl, rfl, rfl, rfl, rfl, rfl, rfl⟩

end Sys2Proof.Machine
end

section
/-! PROOFS. The family 43_control.md: the operation that the levels at the ports select, what a step with steady control
inputs leaves, and that no edge keeps from completing. -/

namespace Sys2Proof.Machine

open Sys2Proof.Claims

/-! ## The operation that the levels select -/

/-- The levels of `rst` and `load` select the operation (30_encoding.md R75). -/
theorem operation_of_levels {c : Inputs} {rst load : Bool} (hrst : c.rst = rst) (hload : c.load = load) :
    c.operation = decodeControl rst load c.frame := by
  rw [Inputs.operation, hrst, hload]

/-! ## The reading word after an edge -/

/-- RESET leaves the reading word 0 (43_control.md R183). -/
@[simp] theorem State.clear_reading (s : State) : s.clear.reading = 0x000000000000#48 := by
  rw [State.reading, State.clear_reg]
  decide

/-- The host's next inputs leave the reading word as it is (10_state.md R21). -/
@[simp] theorem State.nextInputs_reading (s : State) : s.nextInputs.reading = s.reading := by
  rw [State.reading, State.nextInputs_reg, State.reading]

/-! ## The step at an edge whose control inputs are steady -/

theorem idle_iff (c : Inputs) :
    idle c = true ↔ c.rst = false ∧ c.load = false ∧ c.rstMoves = false ∧ c.loadMoves = false := by
  simp [idle, and_assoc]

/-- Stable inputs have steady control inputs. -/
theorem Inputs.control_steady_of_stable {c : Inputs} (h : c.stable = true) :
    c.rstMoves = false ∧ c.loadMoves = false := by
  simp only [Inputs.stable, Bool.and_eq_true, Bool.not_eq_true'] at h
  exact h.1

/-- A reset edge clears the register, whatever `load` is and whatever the frame does (43_control.md R183, R184). -/
theorem step_eq_of_rst {s : State} (hrstMoves : s.pins.rstMoves = false) (hloadMoves : s.pins.loadMoves = false)
    (hrst : s.pins.rst = true) : step s = .next s.clear.nextInputs := by
  have hclear : s.setReg s.sampledRegister = s.clear := by simp [State.sampledRegister, hrst, State.clear]
  rw [step_of_next (exec_operation s), hclear, settleEdge_of_no_load s.clear hrstMoves hloadMoves (.inl hrst)]

/-- A stable edge with `rst = 0` and `load = 1` loads the frame at the port (43_control.md R181). -/
theorem step_eq_of_load {s : State} (hstable : s.pins.stable = true) (hrst : s.pins.rst = false)
    (hload : s.pins.load = true) : step s = .next (s.loadFrame s.pins.frame).nextInputs := by
  have hframe : s.setReg s.sampledRegister = s.loadFrame s.pins.frame := by
    simp [State.sampledRegister, hrst, hload, State.loadFrame]
  rw [step_eq_of_stable hstable, hframe]

/-! ## The obligations -/

/-- Settles O5: the register of the step function is the sampled one. -/
theorem stepIsTheStepFunction : Obligations.StepIsTheStepFunction := by
  intro s hstable
  exact ⟨_, step_eq_of_stable hstable, State.nextInputs_reg _, rfl, State.nextInputs_draws _⟩

/-- Settles O6: every instruction writes a register, so the sampled operation answers, and the step with it. -/
theorem everyEdgeCompletes : Obligations.EveryEdgeCompletes := by
  refine ⟨fun s => ⟨_, step_of_next (exec_operation s)⟩, fun i s => ?_⟩
  obtain ⟨r, hexec⟩ := exec_eq_setReg i s
  exact ⟨s.setReg r, hexec⟩

/-- Settles O55: neither a reset edge nor an idle one reads the frame. -/
theorem steadyControlDecidesTheEdge : Obligations.SteadyControlDecidesTheEdge := by
  intro s hrstMoves hloadMoves
  refine ⟨fun hrst => ?_, fun hrst hload => ?_⟩
  · exact ⟨_, step_eq_of_rst hrstMoves hloadMoves hrst, by simp, by simp, by simp, rfl⟩
  · have hidle : idle s.pins = true := (idle_iff _).mpr ⟨hrst, hload, hrstMoves, hloadMoves⟩
    exact ⟨_, step_eq_of_idle hidle, by simp, by simp, by simp, rfl⟩

/-- Settles O1: RESET writes the register whose fields are all 0. -/
theorem resetClearsEveryField : Obligations.ResetClearsEveryField := by
  refine ⟨fun c hrst hload => operation_of_levels hrst hload, fun s => ⟨s.clear, rfl, rfl, rfl, rfl, rfl, rfl, rfl, rfl,
    rfl, rfl, rfl, rfl, Register.zero_digit, s.clear_reading, ⟨rfl, rfl, rfl⟩, fun hstable hrst _ => ?_⟩⟩
  obtain ⟨hrstMoves, hloadMoves⟩ := Inputs.control_steady_of_stable hstable
  exact step_eq_of_rst hrstMoves hloadMoves hrst

/-- Settles O2: RESETLOAD means RESET, and `rst = 1` alone decides the edge. -/
theorem resetWinsOverLoad : Obligations.ResetWinsOverLoad := by
  refine ⟨fun c hrst hload => operation_of_levels hrst hload,
    fun f s => ⟨rfl, s.clear, rfl, s.clear_reading, rfl, rfl, rfl⟩, fun s hstable hrst _ => ?_⟩
  obtain ⟨hrstMoves, hloadMoves⟩ := Inputs.control_steady_of_stable hstable
  exact ⟨_, step_eq_of_rst hrstMoves hloadMoves hrst, by simp⟩

/-- Settles O3: an idle edge leaves the state as it is, but for the host's next inputs. -/
theorem holdKeepsTheRegister : Obligations.HoldKeepsTheRegister := by
  refine ⟨fun c hrst hload => operation_of_levels hrst hload, fun s => ⟨s, rfl, rfl, rfl, rfl, rfl⟩,
    fun s hrst hload hrstMoves hloadMoves => ?_⟩
  have hidle : idle s.pins = true := (idle_iff _).mpr ⟨hrst, hload, hrstMoves, hloadMoves⟩
  exact ⟨_, step_eq_of_idle hidle, State.nextInputs_reg s⟩

/-- Settles O4: LOAD writes `DECODE` of its frame, in which the register before it has no part. -/
theorem loadCapturesTheFrameAlone : Obligations.LoadCapturesTheFrameAlone := by
  refine ⟨fun c hrst hload => operation_of_levels hrst hload, fun f s s' => ⟨s.loadFrame f, s'.loadFrame f, rfl, rfl,
    rfl, rfl, rfl, rfl, ⟨rfl, rfl, rfl⟩, fun hstable hrst hload hframe => ?_, fun hframe => ?_⟩⟩
  · rw [step_eq_of_load hstable hrst hload, hframe]
  · rw [State.reading, State.loadFrame_reg, hframe]
    decide

end Sys2Proof.Machine
end

section
/-! PROOFS. The family 44_host_render.md: which soft diagnostics a rendering raises, and the digit part as the
characters of the five codes with at most one point among them. -/

namespace Sys2Proof.Machine

open Sys2Proof.Claims

/-! ## What an observation shows of the register -/

/-- A symbol is printed as the character of its code (44_host_render.md R208). -/
theorem digitChar_of_symbolOfCode {c : Nibble} {x : DigitSymbol} (h : symbolOfCode c = some x) :
    digitChar x = codeChar c := by
  unfold symbolOfCode at h
  split at h
  · next hdigit => cases h; simp [digitChar, codeChar, hdigit]
  · split at h
    · next hovf => cases h; subst hovf; rfl
    · split at h
      · next hblank => cases h; subst hblank; rfl
      · cases h

/-- A reading has the register's sign, position and point (10_state.md R24, R28). -/
theorem sign_point_of_observe {r : Register} {d : DecodedReading} (h : r.observe = .next d) :
    d.negative = r.sign ∧ d.position = r.dp.toNat ∧ d.point = r.dps := by
  unfold Register.observe at h
  split at h
  · cases h; exact ⟨rfl, rfl, rfl⟩
  · cases h

/-- A reading's digits are printed as the characters of the register's five codes, in the order of the lanes
(44_host_render.md R207). -/
theorem digits_map_digitChar_of_observe {r : Register} {d : DecodedReading} (h : r.observe = .next d) :
    d.digits.map digitChar = [0, 1, 2, 3, 4].map (fun lane : Fin 5 => codeChar (r.digit lane)) := by
  unfold Register.observe at h
  split at h
  · next h0 h1 h2 h3 h4 _ _ =>
    cases h
    simp [Register.digit, digitChar_of_symbolOfCode h0, digitChar_of_symbolOfCode h1, digitChar_of_symbolOfCode h2,
      digitChar_of_symbolOfCode h3, digitChar_of_symbolOfCode h4]
  · cases h

/-! ## The point among the digits -/

/-- The renderer prints the characters alone where no point is shown, or its place is before the first of them. -/
theorem digitText_of_no_point {point : Bool} {position i : Nat} (h : point = false ∨ position < i)
    (ds : List DigitSymbol) : digitText point position i ds = ds.map digitChar := by
  induction ds generalizing i with
  | nil => rfl
  | cons x xs ih =>
    have hnot : (point && i == position) = false := by
      rcases h with h | h
      · simp [h]
      · simp [h.ne']
    have hnext : point = false ∨ position < i + 1 := h.imp_right Nat.lt_succ_of_lt
    simp [digitText, hnot, ih hnext]

/-- A point that is shown stands right after the character `n` places from the first (44_host_render.md R207). -/
theorem digitText_of_point {ds : List DigitSymbol} {n : Nat} (h : n < ds.length) (i : Nat) :
    digitText true (i + n) i ds = (ds.map digitChar).take (n + 1) ++ ['.'] ++ (ds.map digitChar).drop (n + 1) := by
  induction ds generalizing i n with
  | nil => simp at h
  | cons x xs ih =>
    cases n with
    | zero => simp [digitText, digitText_of_no_point (.inr (Nat.lt_succ_self i))]
    | succ n =>
      have hrest := ih (Nat.lt_of_succ_lt_succ h) (i + 1)
      rw [Nat.succ_add_eq_add_succ] at hrest
      simp [digitText, hrest]

/-- With neither mode nor unit shown, the line is the sign and the digit part (44_host_render.md R205, R207). -/
theorem render_text_of_digits_only (d : DecodedReading) (hp : Config.HostParams) :
    (d.render hp ⟨false, false⟩).text = signPart d.negative ++ digitText d.point d.position 0 d.digits := by
  simp [DecodedReading.render, modePart, unitPart]

/-- A loaded register shows a point exactly where its position is 0 to 3 (10_state.md R28). -/
theorem decodeFrame_dps_iff (f : Frame) : (decodeFrame f).dps = true ↔ (decodeFrame f).dp.toNat ≤ 3 := by
  obtain ⟨-, -, -, hdps, -⟩ := (Register.loadedLegal_iff _).mp (decodeFrame_loadedLegal f)
  exact hdps

/-! ## The obligations -/

/-- Settles O50: a part of the reading is absent exactly where its flag is 0, and a diagnostic names a part that is
shown and absent. -/
theorem softDiagnosticsOfARendering : Obligations.SoftDiagnosticsOfARendering := by
  intro r d hp o hobs
  obtain ⟨hmode, hunit⟩ := isNone_of_observe hobs
  rw [render_diags, hmode, hunit]
  simp

/-- Settles O51: the characters are those of the five codes, and the point is shown where the position is at most 3, so
that it stands after one of the five. -/
theorem digitPartOfARendering : Obligations.DigitPartOfARendering := by
  intro f d hobs
  obtain ⟨hsign, hposition, hpoint⟩ := sign_point_of_observe hobs
  have hchars := digits_map_digitChar_of_observe hobs
  have hlength : d.digits.length = 5 := by simpa using congrArg List.length hchars
  have hdps := decodeFrame_dps_iff f
  refine ⟨hchars, hdps, ?_, fun hp => ?_⟩
  · rw [hposition, hpoint]
    split
    · next hle =>
      have htext := digitText_of_point (ds := d.digits) (n := (decodeFrame f).dp.toNat) (by omega) 0
      rw [hdps.mpr hle]
      rwa [Nat.zero_add] at htext
    · next hgt => exact digitText_of_no_point (.inl (Bool.eq_false_iff.mpr (hdps.not.mpr hgt))) _
  · rw [render_text_of_digits_only, hsign]
    rfl

end Sys2Proof.Machine
end

section
/-! PROOFS. The family 60_exceptions.md: an exchange gives a whole frame or one error, what the edge of a host's cycle
leaves, the report, result and indications the host reads there, and the codes that tell the results apart. -/

namespace Sys2Proof.Machine

/-! ## The exchange -/

/-- The bytes of a frame one by one (20_memory.md R54). -/
theorem bytesOfFrame_eq (f : Frame) :
    bytesOfFrame f = [frameByte f 0, frameByte f 1, frameByte f 2, frameByte f 3, frameByte f 4, frameByte f 5,
      frameByte f 6, frameByte f 7, frameByte f 8, frameByte f 9, frameByte f 10, frameByte f 11] := rfl

/-- The frame that twelve bytes make holds them, in the order of reception (20_memory.md R54, R56). -/
theorem bytesOfFrame_of_frameOfBytes {bs : List Byte} {f : Frame} (h : frameOfBytes bs = some f) :
    bytesOfFrame f = bs := by
  unfold frameOfBytes at h
  split at h
  · cases h
    simp (disch := omega) only [bytesOfFrame_eq, frameByte, frameOf, BitVec.extractLsb'_append_eq_of_le,
      BitVec.extractLsb'_append_eq_of_add_le, BitVec.extractLsb'_eq_self, Nat.reduceMul, Nat.reduceSub]
  · cases h

/-- An exchange gives a frame only of a request written, a line that became ready, and bytes that make the frame
(60_exceptions.md R225). -/
theorem Exchange.result_eq_ok_iff (x : Exchange) (f : Frame) :
    x.result = .ok f ↔ x.written = 1 ∧ x.wait = .ready ∧ frameOfBytes x.bytes = some f := by
  unfold Exchange.result
  by_cases hwritten : x.written = 1
  case neg => simp [hwritten]
  case pos =>
    cases hwait : x.wait
    case ready => cases hframe : frameOfBytes x.bytes <;> simp [hwritten]
    all_goals simp [hwritten]

/-- Any other number of bytes than twelve is a short read, once the line is ready (60_exceptions.md R224). -/
theorem Exchange.result_of_length_ne {x : Exchange} (hwritten : x.written = 1) (hwait : x.wait = .ready)
    (hlength : x.bytes.length ≠ 12) : x.result = .error .shortReadError := by
  cases hframe : frameOfBytes x.bytes
  case none => simp [Exchange.result, hwritten, hwait, hframe]
  case some f => exact absurd (length_of_frameOfBytes hframe) hlength

/-! ## The edge of a cycle -/

/-- After a failed exchange the host drives HOLD: the edge keeps the register (60_exceptions.md R226). -/
theorem step_cycle_error (e : HostError) (s : State) :
    ∃ t, step { s with pins := cycleInputs (.error e) } = .next t ∧ t.reg = s.reg :=
  ⟨_, step_eq_of_idle rfl, State.nextInputs_reg _⟩

/-- For a frame the host drives stable levels, `rst = 0` and `load = 1` (60_exceptions.md R226). -/
theorem cycleInputs_ok (f : Frame) : cycleInputs (.ok f) = Inputs.steady false true f := by
  simp [cycleInputs, inputsFor, Instr.format, encode, controlBytes, place]

/-- After a successful exchange the edge loads its frame (60_exceptions.md R226). -/
theorem step_cycle_ok (f : Frame) (s : State) :
    ∃ t, step { s with pins := cycleInputs (.ok f) } = .next t ∧ t.reg = decodeFrame f := by
  rw [cycleInputs_ok]
  exact ⟨_, step_eq_of_load rfl rfl rfl, State.nextInputs_reg _⟩

/-! ## What the host reads after the edge -/

/-- The report of a cycle that loaded a valid frame has the soft diagnostics of its rendering, ModeNotSet before
UnitNotSet (60_exceptions.md R225). -/
theorem cycleReport_errors_of_fok {r : Register} (hrdy : r.rdy = true) (hfok : r.fok = true)
    (hres : r.hasReservedCode = false) (hp : Config.HostParams) (o : RenderOptions) (f : Frame) :
    ∃ rep, cycleReport hp o (.ok f) r = .next rep ∧
      rep.errors = (if o.showMode && !r.mkn then [HostError.modeNotSet] else []) ++
        (if o.showUnit && !r.ukn then [HostError.unitNotSet] else []) := by
  rcases observe_cases r with ⟨h, -⟩ | ⟨-, d, hobs⟩
  · simp [hres] at h
  · obtain ⟨hmode, hunit⟩ := isNone_of_observe hobs
    have hrender : r.render hp o = .next (d.render hp o) := by simp [Register.render, hrdy, hfok, hobs]
    exact ⟨⟨(d.render hp o).text, (d.render hp o).diags, []⟩, by simp [cycleReport, hfok, hrender],
      by rw [render_diags, hmode, hunit]⟩

/-- The result of a cycle that loaded a frame is decided by the framing check (60_exceptions.md R224, R225). -/
theorem cycleResult_decodeFrame (f g : Frame) :
    cycleResult (.ok g) (decodeFrame f) = .next (if frameOk f then .none else .error .invalidFrameError) :=
  whenObservable_of_legal _ (decodeFrame_hasReservedCode f)

/-! ## The results and their codes -/

/-- The codes of the errors are numbered from 1 in the order of the table (60_exceptions.md R224). -/
theorem HostError.ofNat_code (e : HostError) : HostError.ofNat (e.code - 1) = e := by cases e <;> rfl

theorem HostError.code_range (e : HostError) : 1 ≤ e.code ∧ e.code ≤ 10 := by cases e <;> decide

theorem HostResult.code_le (x : HostResult) : x.code ≤ 10 := by
  cases x
  case none => exact Nat.zero_le _
  case error e => exact e.code_range.2

/-- The code tells the results apart (60_exceptions.md R224). -/
theorem HostResult.code_injective : Function.Injective HostResult.code := by
  have hpos (e : HostError) : e.code ≠ 0 := by have := e.code_range; omega
  intro x y h
  cases x <;> cases y
  case none.none => rfl
  case none.error e => exact absurd h.symm (hpos e)
  case error.none e => exact absurd h (hpos e)
  case error.error d e =>
    have hcode : d.code = e.code := h
    rw [← d.ofNat_code, hcode, e.ofNat_code]

/-- Classes follow the codes: setup, exchange and LOAD, rendering (60_exceptions.md R224). -/
theorem HostError.errorClass_iff (e : HostError) :
    (e.errorClass = .setupFatal ↔ e.code ≤ 2) ∧ (e.errorClass = .soft ↔ 9 ≤ e.code) ∧
      (e.errorClass = .perExchange ↔ 3 ≤ e.code ∧ e.code ≤ 8) := by
  cases e <;> decide

/-- Origins follow the codes (60_exceptions.md R224, column "raised by"). -/
theorem HostError.origin_iff (e : HostError) :
    (e.origin = .transportOpen ↔ e.code ≤ 2) ∧ (e.origin = .transportExchange ↔ 3 ≤ e.code ∧ e.code ≤ 7) ∧
      (e.origin = .fbpLoad ↔ e.code = 8) ∧ (e.origin = .hostRender ↔ 9 ≤ e.code) := by
  cases e <;> decide

/-- An observation that answers a value is not the answer "no indication". -/
theorem whenObservable_some_ne_none (r : Register) (b : Bool) : r.whenObservable (some b) ≠ .next none := by
  rcases whenObservable_cases r (some b) with h | h <;> simp [h]

/-- The errors 1 to 7, and no others, have no indication in the register (60_exceptions.md R224). -/
theorem indication_eq_none_iff (e : HostError) (r : Register) :
    (HostResult.error e).indication r = .next none ↔ e.code ≤ 7 := by
  cases e
  case invalidFrameError | modeNotSet | unitNotSet =>
    exact iff_of_false (whenObservable_some_ne_none r _) (by decide)
  all_goals exact iff_of_true rfl (by decide)

/-! ## The obligations -/

/-- Settles O7: where neither is driven the edge is idle, and leaves the reading word. -/
theorem readingChangesOnlyAtResetOrLoad : Obligations.ReadingChangesOnlyAtResetOrLoad := by
  intro s t hrstMoves hloadMoves hstep hchanged
  by_contra hnot
  obtain ⟨hrst, hload⟩ : s.pins.rst = false ∧ s.pins.load = false := by simpa using hnot
  rw [step_eq_of_idle ((idle_iff _).mpr ⟨hrst, hload, hrstMoves, hloadMoves⟩)] at hstep
  cases hstep
  exact hchanged s.nextInputs_reading

/-- Settles O53: a failed exchange is a HOLD edge; a loaded frame holds no reserved code, so its report is that of the
framing check it failed or of its rendering. -/
theorem cyclePriority : Obligations.CyclePriority := by
  intro hp o s
  refine ⟨fun e => ?_, fun f => ?_⟩
  · obtain ⟨t, hstep, hreg⟩ := step_cycle_error e s
    exact ⟨t, hstep, hreg, rfl⟩
  · obtain ⟨t, hstep, hreg⟩ := step_cycle_ok f s
    refine ⟨t, hstep, hreg, ?_⟩
    rw [hreg]
    cases hfok : frameOk f
    case false => exact ⟨_, cycleReport_of_not_fok rfl hfok (decodeFrame_hasReservedCode f) hp o f, rfl⟩
    case true => exact cycleReport_errors_of_fok rfl hfok (decodeFrame_hasReservedCode f) hp o f

/-- Settles O54: the write is looked at first, then how the wait ended, then the number of bytes. -/
theorem exchangeGivesAFrameOrOneError : Obligations.ExchangeGivesAFrameOrOneError := by
  intro x
  refine ⟨fun hwritten => ?_, fun hwritten hwait => ?_, fun hwritten hwait => ?_, fun hwritten hwait => ?_,
    fun hwritten hwait hlength => Exchange.result_of_length_ne hwritten hwait hlength,
    fun hwritten hwait hlength => ?_, fun f hresult => ?_⟩
  · simp [Exchange.result, hwritten]
  · simp [Exchange.result, hwritten, hwait]
  · simp [Exchange.result, hwritten, hwait]
  · simp [Exchange.result, hwritten, hwait]
  · obtain ⟨f, hframe⟩ := frameOfBytes_of_length hlength
    exact ⟨f, (x.result_eq_ok_iff f).mpr ⟨hwritten, hwait, hframe⟩, bytesOfFrame_of_frameOfBytes hframe⟩
  · obtain ⟨-, -, hframe⟩ := (x.result_eq_ok_iff f).mp hresult
    exact bytesOfFrame_of_frameOfBytes hframe

/-- Settles O57: the columns of the table row by row; and the register a LOAD leaves has `RDY = 1` and no reserved code,
so its flags are the result and the indications. -/
theorem resultsOfTheTaxonomy : Obligations.ResultsOfTheTaxonomy := by
  refine ⟨fun x y => ⟨x.code_le, fun h => HostResult.code_injective h⟩, fun e => ?_, fun f s => ?_⟩
  · obtain ⟨hsetup, hsoft, hexchange⟩ := e.errorClass_iff
    obtain ⟨hopen, htransport, hfbp, hrender⟩ := e.origin_iff
    exact ⟨e.code_range.1, hsetup, hsoft, hexchange, hopen, htransport, hfbp, hrender, indication_eq_none_iff e⟩
  · obtain ⟨t, hstep, hreg⟩ := step_cycle_ok f s
    refine ⟨t, hstep, ?_⟩
    rw [hreg]
    refine ⟨⟨_, cycleResult_decodeFrame f f, ?_⟩, ?_⟩
    · cases frameOk f <;> rfl
    · simp [HostResult.indication]

end Sys2Proof.Machine
end

section
/-! PROOFS. The family 70_reset_and_hazards.md: which bits of a moving frame free which fields, what the step does at a LOAD
whose frame moves and at an edge whose control inputs move, and the power cycle. -/

namespace Sys2Proof.Machine

open Sys2Proof.Claims

/-! ## The moving bits of a field, as a mask of the port -/

/-- The bits of a field's mask are those from its lowest bit up to its length. -/
theorem getLsbD_fieldMask {lo len i : Nat} (hi : i < 96) :
    ((BitVec.allOnes len).setWidth 96 <<< lo).getLsbD i = decide (lo ≤ i ∧ i < lo + len) := by
  by_cases hlo : lo ≤ i
  · have hlen : i - lo < len ↔ i < lo + len := by omega
    simp [hi, hlo, hlen]
  · simp [hlo, Nat.lt_of_not_le hlo]

/-- Some bit of a field moves exactly where the moving bits meet the field's mask. -/
theorem moved_iff_and_mask (moves : Frame) {lo len : Nat} (h : lo + len ≤ 96) :
    moved moves lo len = true ↔ moves &&& ((BitVec.allOnes len).setWidth 96 <<< lo) ≠ 0 := by
  rw [moved, bne_iff_ne, ne_eq, ne_eq, not_iff_not]
  refine ⟨fun hfield => BitVec.eq_of_getLsbD_eq fun i hi => ?_, fun hmask => BitVec.eq_of_getLsbD_eq fun i hi => ?_⟩
  · rw [BitVec.getLsbD_and, getLsbD_fieldMask hi]
    by_cases hin : lo ≤ i ∧ i < lo + len
    · have hbit := congrArg (BitVec.getLsbD · (i - lo)) hfield
      have hlen : i - lo < len := by omega
      simp only [BitVec.getLsbD_extractLsb', Nat.add_sub_cancel' hin.1, hlen, decide_true, Bool.true_and] at hbit
      simp [hbit]
    · simp [hin]
  · have hbit := congrArg (BitVec.getLsbD · (lo + i)) hmask
    simp only [BitVec.getLsbD_and, getLsbD_fieldMask (show lo + i < 96 by omega)] at hbit
    simpa [hi] using hbit

theorem sign_moved_iff (moves : Frame) : moved moves 36 1 = true ↔ moves &&& selectorMask .sign ≠ 0 :=
  moved_iff_and_mask moves (by omega)

theorem position_moved_iff (moves : Frame) : moved moves 19 3 = true ↔ moves &&& positionMask ≠ 0 :=
  moved_iff_and_mask moves (by omega)

theorem modeMoved_iff (moves : Frame) : modeMoved moves = true ↔ moves &&& modeMask ≠ 0 :=
  moved_iff_and_mask moves (by omega)

theorem laneMoved_iff (moves : Frame) (lane : Fin 5) :
    laneMoved moves lane = true ↔ moves &&& selectorMask (.digitLane lane) ≠ 0 :=
  moved_iff_and_mask moves (by omega)

/-- The moving bits meet two masks together where they meet one of them. -/
theorem and_or_ne_zero_iff (moves m n : Frame) :
    moves &&& (m ||| n) ≠ 0 ↔ moves &&& m ≠ 0 ∨ moves &&& n ≠ 0 := by
  simp [BitVec.and_or_distrib_left, imp_iff_not_or]

theorem tableMoved_iff (moves : Frame) : tableMoved moves = true ↔ moves &&& selectorMask .modeSel ≠ 0 := by
  have hparts : selectorMask .modeSel = modeMask ||| positionMask := by decide
  rw [hparts, and_or_ne_zero_iff, ← modeMoved_iff, ← position_moved_iff, tableMoved, Bool.or_eq_true, modeMoved]

theorem framing_moved_iff (moves : Frame) :
    (moved moves 0 8 || moved moves 88 8) = true ↔ moves &&& selectorMask .framing ≠ 0 := by
  have hparts : selectorMask .framing = 0xFF#96 ||| 0xFF#96 <<< 88 := by decide
  rw [hparts, and_or_ne_zero_iff, Bool.or_eq_true]
  exact or_congr (moved_iff_and_mask moves (by omega)) (moved_iff_and_mask moves (by omega))

/-! ## A spoiled register, field by field -/

section Spoil

variable (r free : Register) (moves : Frame)

@[simp] theorem Register.spoil_rdy : (r.spoil free moves).rdy = r.rdy := rfl

@[simp] theorem Register.spoil_fok :
    (r.spoil free moves).fok = if moves &&& selectorMask .framing = 0 then r.fok else free.fok := by
  simp only [Register.spoil, framing_moved_iff, ite_not]

@[simp] theorem Register.spoil_sign :
    (r.spoil free moves).sign = if moves &&& selectorMask .sign = 0 then r.sign else free.sign := by
  simp only [Register.spoil, sign_moved_iff, ite_not]

@[simp] theorem Register.spoil_mkn :
    (r.spoil free moves).mkn = if moves &&& modeMask = 0 then r.mkn else free.mkn := by
  simp only [Register.spoil, modeMoved_iff, ite_not]

@[simp] theorem Register.spoil_mode :
    (r.spoil free moves).mode = if moves &&& modeMask = 0 then r.mode else free.mode := by
  simp only [Register.spoil, modeMoved_iff, ite_not]

@[simp] theorem Register.spoil_dpr :
    (r.spoil free moves).dpr = if moves &&& positionMask = 0 then r.dpr else free.dpr := by
  simp only [Register.spoil, position_moved_iff, ite_not]

@[simp] theorem Register.spoil_dp :
    (r.spoil free moves).dp = if moves &&& selectorMask .modeSel = 0 then r.dp else free.dp := by
  simp only [Register.spoil, tableMoved_iff, ite_not]

@[simp] theorem Register.spoil_dps :
    (r.spoil free moves).dps = if moves &&& selectorMask .modeSel = 0 then r.dps else free.dps := by
  simp only [Register.spoil, tableMoved_iff, ite_not]

@[simp] theorem Register.spoil_unit :
    (r.spoil free moves).unit = if moves &&& modeMask = 0 then r.unit else free.unit := by
  simp only [Register.spoil, modeMoved_iff, ite_not]

@[simp] theorem Register.spoil_pfx :
    (r.spoil free moves).pfx = if moves &&& selectorMask .modeSel = 0 then r.pfx else free.pfx := by
  simp only [Register.spoil, tableMoved_iff, ite_not]

@[simp] theorem Register.spoil_ukn :
    (r.spoil free moves).ukn = if moves &&& modeMask = 0 then r.ukn else free.ukn := by
  simp only [Register.spoil, modeMoved_iff, ite_not]

@[simp] theorem Register.spoil_digit (lane : Fin 5) :
    (r.spoil free moves).digit lane =
      if moves &&& selectorMask (.digitLane lane) = 0 then r.digit lane else free.digit lane := by
  have hlane : (r.spoil free moves).digit lane = if laneMoved moves lane then free.digit lane else r.digit lane := by
    fin_cases lane <;> rfl
  simp only [hlane, laneMoved_iff, ite_not]

/-- A frame that does not move spoils nothing. -/
@[simp] theorem Register.spoil_zero : r.spoil free 0 = r := by
  apply Register.ext_fields <;> simp

end Spoil

/-- The digit of a lane stands at its place of the 44 state bits (30_encoding.md R80). -/
theorem Register.ofBits_digit (b : RegisterBits) (lane : Fin 5) :
    (Register.ofBits b).digit lane = b.extractLsb' (24 + 4 * lane.val) 4 := by
  fin_cases lane <;> rfl

/-! ## The frames that the moving bits can make -/

/-- A part of the port none of whose bits moves is the same in every frame that the moving bits can make. -/
theorem and_eq_of_still {f g moves m : Frame} (hmade : (g ^^^ f) &&& ~~~moves = 0) (hstill : moves &&& m = 0) :
    f &&& m = g &&& m := by
  apply BitVec.eq_of_getLsbD_eq
  intro i hi
  have hmadeBit := congrArg (BitVec.getLsbD · i) hmade
  have hstillBit := congrArg (BitVec.getLsbD · i) hstill
  simp only [BitVec.getLsbD_and, BitVec.getLsbD_xor, BitVec.getLsbD_not, hi, decide_true, Bool.true_and,
    BitVec.ofNat_eq_ofNat, BitVec.getLsbD_zero] at hmadeBit hstillBit ⊢
  cases hmoves : moves.getLsbD i
  case true =>
    have hmask : m.getLsbD i = false := by simpa [hmoves] using hstillBit
    rw [hmask, Bool.and_false, Bool.and_false]
  case false =>
    have hagree : g.getLsbD i = f.getLsbD i := by simpa [hmoves] using hmadeBit
    rw [hagree]

/-- The unit of a row of the table depends on the mode code alone (42_mode_table.md R141 to R152). -/
theorem modeTable_unit_eq (mc : Nibble) (p q : Int) : (modeTable mc p).unit = (modeTable mc q).unit := by
  have hcap (p : Int) : (rowCap p).unit = .f := by unfold rowCap; split <;> rfl
  have hres (p : Int) : (rowRes p).unit = .ohm := by unfold rowRes; split_ifs <;> rfl
  unfold modeTable
  split
  case h_5 => rw [hcap, hcap]
  case h_8 => rw [hres, hres]
  all_goals rfl

/-- Whether a row of the table is known depends on the mode code alone (42_mode_table.md R140). -/
theorem modeTable_mkn_eq (mc : Nibble) (p q : Int) : (modeTable mc p).mkn = (modeTable mc q).mkn :=
  Bool.eq_iff_iff.mpr ((modeTable_mkn mc p).trans (modeTable_mkn mc q).symm)

/-- `MODE`, `MKN`, `UNIT` and `UKN` of a loaded register are given by the mode field (42_mode_table.md R140). -/
theorem decodeFrame_mode_fields_eq {f g : Frame} (h : f &&& modeMask = g &&& modeMask) :
    (decodeFrame f).mode = (decodeFrame g).mode ∧ (decodeFrame f).mkn = (decodeFrame g).mkn ∧
      (decodeFrame f).unit = (decodeFrame g).unit ∧ (decodeFrame f).ukn = (decodeFrame g).ukn := by
  have hmode : modeCode f = modeCode g := extractLsb'_eq_of_and_eq (by decide) h
  have hunit := modeTable_unit_eq (modeCode g) (dpr f).toNat (dpr g).toNat
  have hmkn := modeTable_mkn_eq (modeCode g) (dpr f).toNat (dpr g).toNat
  simp only [decodeFrame, hmode, hunit, hmkn, and_self]

/-- `DPR` of a loaded register is given by the position field (41_field_extract.md R110). -/
theorem decodeFrame_dpr_eq {f g : Frame} (h : f &&& positionMask = g &&& positionMask) :
    (decodeFrame f).dpr = (decodeFrame g).dpr :=
  congrArg rawPosition (extractLsb'_eq_of_and_eq (by decide) h)

/-- `DP`, `DPS` and `PFX` of a loaded register are given by the mode and position fields (42_mode_table.md R140). -/
theorem decodeFrame_table_fields_eq {f g : Frame}
    (h : f &&& selectorMask .modeSel = g &&& selectorMask .modeSel) :
    (decodeFrame f).dp = (decodeFrame g).dp ∧ (decodeFrame f).dps = (decodeFrame g).dps ∧
      (decodeFrame f).pfx = (decodeFrame g).pfx := by
  simp only [decodeFrame, modeCode, dpr, modeField_eq_of_and_eq h, dpField_eq_of_and_eq h, and_self]

/-! ## The step at an edge whose inputs move -/

/-- At a LOAD edge whose frame moves, the end of the edge spoils the register and counts a draw
(70_reset_and_hazards.md R261). -/
theorem settleEdge_of_moving_load {c : Inputs} (t : State) (hrst : c.rst = false) (hload : c.load = true)
    (hrstMoves : c.rstMoves = false) (hloadMoves : c.loadMoves = false) (hframe : c.frameMoves ≠ 0) :
    settleEdge c t = { t with reg := t.reg.spoil t.freeRegister c.frameMoves, draws := t.draws + 1 } := by
  have hsteady : ¬(c.rstMoves || c.loadMoves) = true := by simp [hrstMoves, hloadMoves]
  have hmoving : (!c.rst && c.load && c.frameMoves != 0) = true := by simpa [hrst, hload] using hframe
  rw [settleEdge, if_neg hsteady, if_pos hmoving]

/-- A LOAD edge with steady control inputs leaves the decoded frame, spoiled by the moving bits, and counts a draw where
some bit moves. -/
theorem step_of_steady_load {s : State} (hrst : s.pins.rst = false) (hload : s.pins.load = true)
    (hrstMoves : s.pins.rstMoves = false) (hloadMoves : s.pins.loadMoves = false) :
    ∃ t, step s = .next t ∧
      t.reg = (decodeFrame s.pins.frame).spoil (Register.ofBits (Config.freeDraw s.draws)) s.pins.frameMoves ∧
      (s.pins.frameMoves ≠ 0 → t.draws = s.draws + 1) := by
  by_cases hframe : s.pins.frameMoves = 0
  · have hstable : s.pins.stable = true := by simp [Inputs.stable, hrstMoves, hloadMoves, hframe]
    refine ⟨_, step_eq_of_load hstable hrst hload, ?_, absurd hframe⟩
    rw [State.nextInputs_reg, State.loadFrame_reg, hframe, Register.spoil_zero]
  · refine ⟨_, step_of_next (exec_operation s), ?_, fun _ => ?_⟩
    · rw [State.nextInputs_reg, settleEdge_of_moving_load _ hrst hload hrstMoves hloadMoves hframe]
      simp [State.sampledRegister, hrst, hload, State.freeRegister]
    · rw [State.nextInputs_draws, settleEdge_of_moving_load _ hrst hload hrstMoves hloadMoves hframe,
        State.setReg_draws]

/-! ## The obligations -/

/-- Settles O49: a still part of the port reads the same in the sampled frame and in every frame that the moving bits can
make, and the fields that depend on this part alone are not spoiled. -/
theorem unstableFrameKeepsIndependentFields : Obligations.UnstableFrameKeepsIndependentFields := by
  intro s g hrst hload hrstMoves hloadMoves hmade
  obtain ⟨t, hstep, hreg, -⟩ := step_of_steady_load hrst hload hrstMoves hloadMoves
  have hsame {m : Frame} (hstill : s.pins.frameMoves &&& m = 0) := and_eq_of_still hmade hstill
  refine ⟨t, hstep, ?_⟩
  rw [hreg]
  refine ⟨rfl, fun hstill => ?_, fun hstill => ?_, fun hstill => ?_, fun hstill => ?_, fun hstill => ?_,
    fun lane hstill => ?_⟩
  · simpa [hstill] using frameOk_eq_of_and_eq (hsame hstill)
  · simpa [hstill, signBit] using signField_eq_of_and_eq (hsame hstill)
  · simpa only [Register.spoil_mode, Register.spoil_mkn, Register.spoil_unit, Register.spoil_ukn, if_pos hstill]
      using decodeFrame_mode_fields_eq (hsame hstill)
  · simpa only [Register.spoil_dpr, if_pos hstill] using decodeFrame_dpr_eq (hsame hstill)
  · simpa only [Register.spoil_dp, Register.spoil_dps, Register.spoil_pfx, if_pos hstill]
      using decodeFrame_table_fields_eq (hsame hstill)
  · simpa [hstill, laneCode] using congrArg dcode (digitByte_eq_of_and_eq (hsame hstill))

/-- Settles O56: a spoiled field is that of the register with the drawn bits. -/
theorem unstableFrameFreesDependentFields : Obligations.UnstableFrameFreesDependentFields := by
  intro s hrst hload hrstMoves hloadMoves hframe
  obtain ⟨t, hstep, hreg, hdraws⟩ := step_of_steady_load hrst hload hrstMoves hloadMoves
  refine ⟨t, hstep, hdraws hframe, ?_⟩
  rw [hreg]
  refine ⟨fun hmoved => ?_, fun hmoved => ?_, fun hmoved => ?_, fun hmoved => ?_, fun hmoved => ?_,
    fun lane hmoved => ?_⟩
  · rw [Register.spoil_fok, if_neg hmoved]; rfl
  · rw [Register.spoil_sign, if_neg hmoved]; rfl
  · rw [Register.spoil_mkn, Register.spoil_mode, Register.spoil_unit, Register.spoil_ukn]
    simp only [if_neg hmoved]
    exact ⟨rfl, rfl, rfl, rfl⟩
  · rw [Register.spoil_dpr, if_neg hmoved]; rfl
  · rw [Register.spoil_dp, Register.spoil_dps, Register.spoil_pfx]
    simp only [if_neg hmoved]
    exact ⟨rfl, rfl, rfl⟩
  · rw [Register.spoil_digit, if_neg hmoved, Register.ofBits_digit]

/-- Settles O48: the end of the edge frees the register whatever operation was sampled, and no operation draws. -/
theorem unstableControlFreesEveryField : Obligations.UnstableControlFreesEveryField := by
  intro s hmoves
  refine ⟨_, step_of_next (exec_operation s), ?_, ?_⟩
  · rw [State.nextInputs_reg, settleEdge_of_control _ hmoves]
    exact Register.bits_ofBits _
  · rw [State.nextInputs_draws, settleEdge_of_control _ hmoves, State.setReg_draws]

/-- Settles O47: the register after a power cycle is the one with the drawn bits, and a reset edge clears any register. -/
theorem powerUpIsAFreeDraw : Obligations.PowerUpIsAFreeDraw := by
  intro s
  refine ⟨Register.bits_ofBits _, rfl, reading_reserved _, fun hstable hrst => ?_⟩
  obtain ⟨hrstMoves, hloadMoves⟩ := Inputs.control_steady_of_stable hstable
  have hstep : step s.powerCycle = .next s.powerCycle.clear.nextInputs := step_eq_of_rst hrstMoves hloadMoves hrst
  exact ⟨_, hstep, by simp⟩

end Sys2Proof.Machine
end

section
/-! PROOFS. The rows of a frame's parts as instructions (log 4), one lemma for what each format's LOAD leaves; and the
instruction that a host drives at the ports, of a table word among others (log 3), at the next step. -/

namespace Sys2Proof.Machine

open Sys2Proof.Claims

/-! ## The rows of a frame's parts as instructions -/

@[simp] theorem Register.withRow_digit (r : Register) (mc p : Nibble) (row : TableRow) (lane : Fin 5) :
    (r.withRow mc p row).digit lane = r.digit lane := rfl

/-- A row of the mode table leaves the fields outside the table as they were. -/
theorem withRow_sameButTable (r : Register) (mc p : Nibble) (row : TableRow) : SameButTable (r.withRow mc p row) r :=
  ⟨rfl, rfl, rfl, r.withRow_digit mc p row⟩

/-- A digit code leaves the fields of the mode table as they were. -/
theorem withDigit_sameTable (r : Register) (lane : Fin 5) (code : Nibble) : SameTable (r.withDigit lane code) r := by
  simp [SameTable]

/-- Writing the register is writing nothing else (10_state.md R23). -/
theorem State.setReg_onlyReg (s : State) (r : Register) : OnlyReg s (s.setReg r) := ⟨rfl, rfl, rfl⟩

/-- The MODE_SEL row that a code selects runs as what its row of the table gives. -/
theorem rowRuns_of_rowGives {code : Nibble} {row : Code3 → Instr} {mkn : Bool} {unit : Code3} {pfx : Nat → Code3}
    {dp : Nat → Nat} (hselect : decodeMode code = row) (hrow : RowGives (modeTable code) mkn unit pfx dp) :
    RowRuns code row mkn unit pfx dp := by
  subst hselect
  exact fun dpf s => ⟨_, exec_decodeMode code dpf s, withRow_holdsRow hrow _ dpf, withRow_sameButTable _ _ _ _,
    s.setReg_onlyReg _⟩

/-- A row that loads the frame at the port with a code in its lane keeps to that lane. -/
theorem digitRow_of_exec {row : Fin 5 → Instr} {code : Nibble}
    (hexec : ∀ lane s, exec (row lane) s = .next (s.loadDigit lane code)) : DigitRow row code :=
  fun lane s => ⟨_, hexec lane s, Register.withDigit_digit _ lane code,
    fun _ hother => Register.withDigit_digit_other _ code hother, Register.withDigit_rdy _ lane code,
    Register.withDigit_fok _ lane code, Register.withDigit_sign _ lane code, withDigit_sameTable _ lane code,
    s.setReg_onlyReg _⟩

/-! ## An instruction driven at the ports -/

/-- The inputs that a host drives for an instruction are stable (log 3). -/
theorem inputsFor_stable (i : Instr) : (inputsFor i).stable = true := by
  unfold inputsFor
  split <;> rfl

/-- The levels for a CTRL row are the two low bits of its control byte (30_encoding.md R75). -/
theorem inputsFor_operation_of_encode {i : Instr} {c : Byte} {f : Frame} (hfmt : i.format = .ctrl)
    (hencode : encode i = controlBytes c f) :
    (inputsFor i).operation = decodeControl (c.getLsbD 1) (c.getLsbD 0) (place i 0) := by
  rw [inputsFor, hfmt, hencode]
  rfl

/-- The inputs for a CTRL row select this row. -/
theorem inputsFor_operation {i : Instr} (h : i.format = .ctrl) : (inputsFor i).operation = i := by
  cases i
  case hold | load | reset | resetLoad => exact (inputsFor_operation_of_encode rfl rfl).trans rfl
  all_goals cases h

/-- The inputs for a row of a frame's part are a LOAD of a frame that holds the row. -/
theorem inputsFor_eq_load {i : Instr} {k : Selector} (h : i.format = .selector k) :
    inputsFor i = Inputs.steady false true (place i 0) := by
  rw [inputsFor, h]

/-- A step with the inputs for a well-formed instruction performs this instruction: a CTRL row is the operation that
the edge samples, and any other row is one that the loaded frame selects. -/
theorem step_of_inputsFor {s : State} {i : Instr} (hwf : WellFormed i = true) (hpins : s.pins = inputsFor i) :
    ∃ t, exec i s = .next t ∧ step s = .next t.nextInputs := by
  have hstable : s.pins.stable = true := hpins ▸ inputsFor_stable i
  cases hfmt : i.format with
  | ctrl =>
    have hop : s.pins.operation = i := hpins ▸ inputsFor_operation hfmt
    exact ⟨_, hop ▸ exec_operation s, step_eq_of_stable hstable⟩
  | selector k =>
    have hload : s.pins = Inputs.steady false true (place i 0) := hpins.trans (inputsFor_eq_load hfmt)
    have hselect : select k s.pins.frame = i := by
      rw [hload]
      exact (placedSelectorIsReadBack i k 0 hwf hfmt).1
    have hrun := loadStepRunsEverySelectedRow s k hstable (by rw [hload]; rfl) (by rw [hload]; rfl)
    rwa [hselect] at hrun

/-- A table word decodes to a well-formed instruction, as everything that the decoder accepts. -/
theorem wellFormed_of_decodeTableWord {nbits w : Nat} {i : Instr} (h : decodeTableWord nbits w = some i) :
    WellFormed i = true := by
  unfold decodeTableWord at h
  split at h
  · next j hdecode =>
    cases h
    exact ((decoderAcceptsExactlyItsFormat _ _).1 _ hdecode).1
  · cases h

/-- Placing a table word drives the inputs for its instruction, and changes nothing else (log 3). -/
theorem withFetchWord_of_decodeTableWord {nbits w : Nat} {i : Instr} (s : State)
    (h : decodeTableWord nbits w = some i) : s.withFetchWord nbits w = { s with pins := inputsFor i } := by
  simp only [State.withFetchWord, h]

/-! ## The obligations -/

/-- Settles O25: each row of the table is what its code selects, and is of one of four shapes: the position unchanged,
the position minus 1, capacitance, resistance. -/
theorem modeRowInstructions : Obligations.ModeRowInstructions := by
  have hunknown := rowGives_unchanged false .none .none
  have hvolts := rowGives_minusOne true .v .none
  refine ⟨?m0, ?m1, ?m2, ?m3, ?gen, ?amp, ?mamp, ?m7, ?temp, ?cap, ?freq, ?diode, ?res, ?mv, ?dcv, ?acv⟩
  case m0 | m1 | m2 | m3 | m7 => exact rowRuns_of_rowGives rfl hunknown
  case gen => exact rowRuns_of_rowGives rfl (rowGives_unchanged true .none .none)
  case amp => exact rowRuns_of_rowGives rfl (rowGives_minusOne true .a .none)
  case mamp => exact rowRuns_of_rowGives rfl (rowGives_unchanged true .a .milli)
  case temp => exact rowRuns_of_rowGives rfl (rowGives_unchanged true .degC .none)
  case cap => exact rowRuns_of_rowGives rfl rowGives_rowCap
  case freq => exact rowRuns_of_rowGives rfl (rowGives_unchanged true .hz .none)
  case res => exact rowRuns_of_rowGives rfl rowGives_rowRes
  case mv => exact rowRuns_of_rowGives rfl (rowGives_unchanged true .v .milli)
  case diode | dcv | acv => exact rowRuns_of_rowGives rfl hvolts

/-- Settles O30: each row loads the frame at the port with its digit in the lane. -/
theorem digitRows : Obligations.DigitRows := by
  refine ⟨?_, ?_, ?_, ?_, ?_, ?_, ?_, ?_, ?_, ?_⟩
  all_goals exact digitRow_of_exec fun _ _ => rfl

/-- Settles O31: the meaning of BLANK does not look at its byte. -/
theorem overflowAndBlankRows : Obligations.OverflowAndBlankRows :=
  ⟨digitRow_of_exec fun _ _ => rfl, fun _ _ => digitRow_of_exec fun _ _ => rfl⟩

/-- Settles O43: the inputs for the instruction are placed, and a step with them performs it. -/
theorem placedTableWordRunsNext : Obligations.PlacedTableWordRunsNext := by
  intro s nbits w i hdecode
  rw [withFetchWord_of_decodeTableWord s hdecode]
  obtain ⟨t, hexec, hstep⟩ :=
    step_of_inputsFor (s := { s with pins := inputsFor i }) (wellFormed_of_decodeTableWord hdecode) rfl
  exact ⟨t, hexec, hstep, rfl⟩

/-- Settles O29: both markers select FRAME_VALID, and each row loads the frame at the port with its `FOK`. -/
theorem framingRows : Obligations.FramingRows := by
  refine ⟨fun f hcmd hlf => ?_, fun s => ⟨s.loadFraming true, rfl, rfl, rfl, rfl, s.setReg_onlyReg _⟩,
    fun cmd lf s _ => ⟨s.loadFraming false, rfl, rfl, rfl, rfl, s.setReg_onlyReg _⟩⟩
  rw [select, hcmd, hlf]
  rfl

/-- Settles O32: each row loads the frame at the port with its sign. -/
theorem signRows : Obligations.SignRows :=
  fun s => ⟨⟨s.loadSign false, rfl, rfl, rfl, s.setReg_onlyReg _⟩,
    ⟨s.loadSign true, rfl, rfl, rfl, s.setReg_onlyReg _⟩⟩

end Sys2Proof.Machine
end
